-- ==== Sys2Proof/Word.lean ====
section
/-! DEFINITION. Word: the widths the spec gives the machine's words and addresses (spec/00_scope.md section 4). -/

namespace Sys2Proof

/-- One register of the data area, or W: `DATA_BITS` = 8 (R10, R11). -/
abbrev Byte := BitVec 8

/-- A data address, the width of the field `f`: `F_BITS` = 7 (R11). -/
abbrev DataAddr := BitVec 7

/-- An instruction address, the width of `pc` and of a stack entry: `PC_BITS` = 11 (R13, R18). -/
abbrev ProgAddr := BitVec 11

/-- An instruction word of the mid range: `WORD_BITS` = 14 (R41, R60). A 12-bit word of the low range (R138) is held
in the low 12 bits of one, with the upper two bits 0. -/
abbrev InstrWord := BitVec 14

/-- The number of a bit inside a register, 0 the least significant (R100). -/
abbrev BitNum := BitVec 3

end Sys2Proof
end

