-- ==== Sys2Proof/Config.lean ====
section
/-! DEFINITION. Config: what an implementation fixes (the spec's open parameters, spec/92_eei_decisions.md "The open
parameters, collected") and the free values the spec leaves (R29, R141, R150, R161). -/

namespace Sys2Proof

/-- Which of the two cores the spec describes (R1, R2). The mid range is the machine the spec specifies; of the low range
it gives two encodings only (R75), so a low-range machine runs OPTION and TRIS and nothing else (log 12). -/
inductive CoreRange where
  | mid
  | low
deriving DecidableEq, Repr

/-- `GIE_MAP = (a, i)`: the data address and the bit at which GIE can be read and written (R29). -/
structure GieMap where
  addr : DataAddr
  bit : BitNum
deriving DecidableEq, Repr

/-- The open parameters of a launch. No step changes them (log 5). -/
structure Params where
  /-- Which core this is (log 12). -/
  range : CoreRange
  /-- `PROG_WORDS`, 1 to 2048 (R17). -/
  progWords : Nat
  /-- `GPR_LO` (R12). -/
  gprLo : DataAddr
  /-- `GPR_HI` (R12). -/
  gprHi : DataAddr
  /-- `GIE_MAP` (R29). -/
  gieMap : Option GieMap
  /-- `WDT_ENABLED`, a premise of the launch (R156). -/
  wdtEnabled : Bool
deriving DecidableEq, Repr

/-- The reference machine: every open parameter at its default (spec/00_scope.md section 4). -/
def Params.reference : Params :=
  { range := .mid, progWords := 2048, gprLo := 0x20#7, gprHi := 0x7F#7, gieMap := none, wdtEnabled := false }

/-- The seven foreign bits a read of the GIEREG address returns: "a read returns any value for them" (R29). A free value:
nothing constrains it. The argument counts the reads, so that each read has a value of its own (log 11). -/
opaque Config.foreignByte : Nat → Byte

/-- The upper two bits of the target of a low-range GOTO, from PA2 to PA0 and the 9-bit `k`: "how they are joined to `k` is
not in the source" (R141). A free value: nothing constrains it (log 13). -/
opaque Config.gotoPage : BitVec 3 → BitVec 9 → BitVec 2

/-- The same for a low-range CALL, a free value of its own: no rule says that the two join alike (R141, log 13). -/
opaque Config.callPage : BitVec 3 → BitVec 9 → BitVec 2

/-- The endless answers of an environment "free of any law" (R150, R161): source `i`'s answer to its question number `n`.
A free value: nothing constrains it, so a claim about it holds for every sequence of answers (log 6). -/
opaque Config.environmentAnswer : Nat → Nat → Bool

end Sys2Proof
end

