-- ==== Sys2Proof/Syntax.lean ====
section
/-! DEFINITION. Syntax: the instructions, one constructor for each row of spec/opcode_table.json, with the operand fields
of spec/30_encoding.md R62 to R68; and the source line of R76, whose operands are plain numbers. -/

namespace Sys2Proof

/-- The destination bit `d`: "Si d=0, el destino es W, y si d=1 el destino es f" (R62, R82). -/
inductive Dest where
  | w
  | f
deriving DecidableEq, Repr

/-- The instructions of the two ranges: 35 of the mid range (R1) and the two that only the low range has (R2). The
operands are the fields of the word (R68); `f` is a data address, 0x00 selecting the indirect mode (R47). -/
inductive Instr where
  | addlw (k : Byte)
  | addwf (f : DataAddr) (d : Dest)
  | andlw (k : Byte)
  | andwf (f : DataAddr) (d : Dest)
  | bcf (f : DataAddr) (b : BitNum)
  | bsf (f : DataAddr) (b : BitNum)
  | btfsc (f : DataAddr) (b : BitNum)
  | btfss (f : DataAddr) (b : BitNum)
  | call (k : ProgAddr)
  | clrf (f : DataAddr)
  | clrw
  | clrwdt
  | comf (f : DataAddr) (d : Dest)
  | decf (f : DataAddr) (d : Dest)
  | decfsz (f : DataAddr) (d : Dest)
  | goto (k : ProgAddr)
  | incf (f : DataAddr) (d : Dest)
  | incfsz (f : DataAddr) (d : Dest)
  | iorlw (k : Byte)
  | iorwf (f : DataAddr) (d : Dest)
  | movlw (k : Byte)
  | movf (f : DataAddr) (d : Dest)
  | movwf (f : DataAddr)
  | nop
  | retfie
  | retlw (k : Byte)
  | ret
  | rlf (f : DataAddr) (d : Dest)
  | rrf (f : DataAddr) (d : Dest)
  | sleep
  | sublw (k : Byte)
  | subwf (f : DataAddr) (d : Dest)
  | swapf (f : DataAddr) (d : Dest)
  | xorlw (k : Byte)
  | xorwf (f : DataAddr) (d : Dest)
  /-- OPTION, low range only (R136). -/
  | option
  /-- TRIS f, low range only; the field `fff` of the word, legal 5 to 7 (R137). -/
  | tris (f : BitNum)
deriving DecidableEq, Repr

/-- A source line without its label (R76): the operands are the numbers the programmer wrote, of any size. -/
inductive SourceInstr where
  | addlw (k : Nat)
  | addwf (f d : Nat)
  | andlw (k : Nat)
  | andwf (f d : Nat)
  | bcf (f b : Nat)
  | bsf (f b : Nat)
  | btfsc (f b : Nat)
  | btfss (f b : Nat)
  | call (k : Nat)
  | clrf (f : Nat)
  | clrw
  | clrwdt
  | comf (f d : Nat)
  | decf (f d : Nat)
  | decfsz (f d : Nat)
  | goto (k : Nat)
  | incf (f d : Nat)
  | incfsz (f d : Nat)
  | iorlw (k : Nat)
  | iorwf (f d : Nat)
  | movlw (k : Nat)
  | movf (f d : Nat)
  | movwf (f : Nat)
  | nop
  | retfie
  | retlw (k : Nat)
  | ret
  | rlf (f d : Nat)
  | rrf (f d : Nat)
  | sleep
  | sublw (k : Nat)
  | subwf (f d : Nat)
  | swapf (f d : Nat)
  | xorlw (k : Nat)
  | xorwf (f d : Nat)
  | option
  | tris (f : Nat)
deriving DecidableEq, Repr

end Sys2Proof
end

