-- ==== Sys2Proof/WellFormed.lean ====
section
/-! DEFINITION. WellFormed: the checks on an instruction's operands that their widths do not already make (R76), and on
the numbers of a source line (R76, R77). -/

namespace Sys2Proof

/-- Which operands of the instruction have an encoding. The widths of the fields are the mid range's operand ranges, so
only TRIS needs a check: its field has three bits and its operand is 5, 6 or 7 (R137). -/
def Instr.wellFormed : Instr → Bool
  | .addlw _ | .andlw _ | .iorlw _ | .movlw _ | .retlw _ | .sublw _ | .xorlw _ => true
  | .addwf _ _ | .andwf _ _ | .comf _ _ | .decf _ _ | .decfsz _ _ | .incf _ _ | .incfsz _ _ => true
  | .iorwf _ _ | .movf _ _ | .rlf _ _ | .rrf _ _ | .subwf _ _ | .swapf _ _ | .xorwf _ _ => true
  | .bcf _ _ | .bsf _ _ | .btfsc _ _ | .btfss _ _ => true
  | .clrf _ | .movwf _ => true
  | .call _ | .goto _ => true
  | .clrw | .clrwdt | .nop | .retfie | .ret | .sleep => true
  | .option => true
  | .tris f => decide (5 ≤ f.toNat)

/-- The operand ranges of R76 for the numbers of a source line: f 0 to 127, d 0 or 1, b 0 to 7, k 0 to 255, the k of
CALL and GOTO 0 to 2047, the f of TRIS 5 to 7. -/
def SourceInstr.inRange : SourceInstr → Bool
  | .addlw k | .andlw k | .iorlw k | .movlw k | .retlw k | .sublw k | .xorlw k => decide (k ≤ 255)
  | .addwf f d | .andwf f d | .comf f d | .decf f d | .decfsz f d | .incf f d | .incfsz f d =>
    decide (f ≤ 127) && decide (d ≤ 1)
  | .iorwf f d | .movf f d | .rlf f d | .rrf f d | .subwf f d | .swapf f d | .xorwf f d =>
    decide (f ≤ 127) && decide (d ≤ 1)
  | .bcf f b | .bsf f b | .btfsc f b | .btfss f b => decide (f ≤ 127) && decide (b ≤ 7)
  | .clrf f | .movwf f => decide (f ≤ 127)
  | .call k | .goto k => decide (k ≤ 2047)
  | .clrw | .clrwdt | .nop | .retfie | .ret | .sleep => true
  | .option => true
  | .tris f => decide (5 ≤ f) && decide (f ≤ 7)

end Sys2Proof
end

