-- ==== Sys2Proof/Decode.lean ====
section
/-! DEFINITION. Decode: from a word to an instruction (R71, R73), and the encoder after it, from the opcode map of R70;
the low range's two words (R75); the assembler's step from a source line (R76, R77). Total; what has no meaning is
rejected by name. -/

namespace Sys2Proof

/-- Why a word is no instruction. -/
inductive DecodeError where
  /-- The word matches no row of the mid-range opcode map (R73). -/
  | illegal (w : InstrWord)
  /-- A low-range word other than OPTION's and TRIS's: its encoding is in no source (R75). -/
  | lowRange (w : InstrWord)
deriving DecidableEq, Repr

/-! ### Fields of a word (R68) -/

/-- `f = word[6:0]`. -/
def fieldF (w : InstrWord) : DataAddr := w.extractLsb' 0 7

/-- `d = word[7]`. -/
def fieldD (w : InstrWord) : Dest := if w[7] then .f else .w

/-- `b = word[9:7]`. -/
def fieldB (w : InstrWord) : BitNum := w.extractLsb' 7 3

/-- `k8 = word[7:0]`. -/
def fieldK8 (w : InstrWord) : Byte := w.extractLsb' 0 8

/-- `k11 = word[10:0]`. -/
def fieldK11 (w : InstrWord) : ProgAddr := w.extractLsb' 0 11

/-! ### The decision tree of R71 -/

/-- `00 0000 0xxx xxxx`: the no-operand group; bits 6:5 of NOP are don't-care (R67, R69). -/
def decodeNoOperand (w : InstrWord) : Except DecodeError Instr :=
  match (w.extractLsb' 0 7).toNat with
  | 0x00 => .ok .nop
  | 0x20 => .ok .nop
  | 0x40 => .ok .nop
  | 0x60 => .ok .nop
  | 0x08 => .ok .ret
  | 0x09 => .ok .retfie
  | 0x63 => .ok .sleep
  | 0x64 => .ok .clrwdt
  | _ => .error (.illegal w)

/-- `00 oooo dfff ffff`: the byte-oriented and no-operand group (R62, R63, R67). -/
def decodeByteGroup (w : InstrWord) : Except DecodeError Instr :=
  match (w.extractLsb' 8 4).toNat with
  | 0x2 => .ok (.subwf (fieldF w) (fieldD w))
  | 0x3 => .ok (.decf (fieldF w) (fieldD w))
  | 0x4 => .ok (.iorwf (fieldF w) (fieldD w))
  | 0x5 => .ok (.andwf (fieldF w) (fieldD w))
  | 0x6 => .ok (.xorwf (fieldF w) (fieldD w))
  | 0x7 => .ok (.addwf (fieldF w) (fieldD w))
  | 0x8 => .ok (.movf (fieldF w) (fieldD w))
  | 0x9 => .ok (.comf (fieldF w) (fieldD w))
  | 0xA => .ok (.incf (fieldF w) (fieldD w))
  | 0xB => .ok (.decfsz (fieldF w) (fieldD w))
  | 0xC => .ok (.rrf (fieldF w) (fieldD w))
  | 0xD => .ok (.rlf (fieldF w) (fieldD w))
  | 0xE => .ok (.swapf (fieldF w) (fieldD w))
  | 0xF => .ok (.incfsz (fieldF w) (fieldD w))
  | 0x1 => if w[7] then .ok (.clrf (fieldF w)) else .ok .clrw
  | _ => if w[7] then .ok (.movwf (fieldF w)) else decodeNoOperand w

/-- `01 oobb bfff ffff`: the bit-oriented group (R64). -/
def decodeBitGroup (w : InstrWord) : Except DecodeError Instr :=
  match (w.extractLsb' 10 2).toNat with
  | 0 => .ok (.bcf (fieldF w) (fieldB w))
  | 1 => .ok (.bsf (fieldF w) (fieldB w))
  | 2 => .ok (.btfsc (fieldF w) (fieldB w))
  | _ => .ok (.btfss (fieldF w) (fieldB w))

/-- `10 okkk kkkk kkkk`: the jump group (R66). -/
def decodeJumpGroup (w : InstrWord) : Except DecodeError Instr :=
  if w[11] then .ok (.goto (fieldK11 w)) else .ok (.call (fieldK11 w))

/-- `11 oooo kkkk kkkk`: the literal group, with the don't-care bits of MOVLW, RETLW, SUBLW and ADDLW (R65, R69);
`1011` is reserved (R73). -/
def decodeLiteralGroup (w : InstrWord) : Except DecodeError Instr :=
  match (w.extractLsb' 10 2).toNat with
  | 0 => .ok (.movlw (fieldK8 w))
  | 1 => .ok (.retlw (fieldK8 w))
  | 2 =>
    match (w.extractLsb' 8 2).toNat with
    | 0 => .ok (.iorlw (fieldK8 w))
    | 1 => .ok (.andlw (fieldK8 w))
    | 2 => .ok (.xorlw (fieldK8 w))
    | _ => .error (.illegal w)
  | _ => if w[9] then .ok (.addlw (fieldK8 w)) else .ok (.sublw (fieldK8 w))

/-- The mid-range decoder (R71, R73): every one of the 16384 words is an instruction or is rejected by name. -/
def decode (w : InstrWord) : Except DecodeError Instr :=
  match (w.extractLsb' 12 2).toNat with
  | 0 => decodeByteGroup w
  | 1 => decodeBitGroup w
  | 2 => decodeJumpGroup w
  | _ => decodeLiteralGroup w

/-- The low-range words the source gives: OPTION 0x002, TRIS 0x005 to 0x007 (R75, R136, R137). -/
def decodeLow (w : InstrWord) : Except DecodeError Instr :=
  match w.toNat with
  | 0x002 => .ok .option
  | 0x005 => .ok (.tris 5)
  | 0x006 => .ok (.tris 6)
  | 0x007 => .ok (.tris 7)
  | _ => .error (.lowRange w)

/-- The decoder of a core: "binary code of one range does not run on the other" (R138). -/
def decodeFor : CoreRange → InstrWord → Except DecodeError Instr
  | .mid, w => decode w
  | .low, w => decodeLow w

/-! ### The encoder -/

/-- The bit `d` of a word (R62). -/
def Dest.bit : Dest → BitVec 1
  | .w => 0#1
  | .f => 1#1

/-- The word of an instruction, every don't-care bit 0 as an assembler emits it (R69), from the rows of R70. A low-range
word (R75) stands in the low 12 bits, the upper two 0. -/
def encode : Instr → InstrWord
  | .addlw k => 0b111110#6 ++ k
  | .addwf f d => 0b000111#6 ++ d.bit ++ f
  | .andlw k => 0b111001#6 ++ k
  | .andwf f d => 0b000101#6 ++ d.bit ++ f
  | .bcf f b => 0b0100#4 ++ b ++ f
  | .bsf f b => 0b0101#4 ++ b ++ f
  | .btfsc f b => 0b0110#4 ++ b ++ f
  | .btfss f b => 0b0111#4 ++ b ++ f
  | .call k => 0b100#3 ++ k
  | .clrf f => 0b0000011#7 ++ f
  | .clrw => 0b00000100000000#14
  | .clrwdt => 0b00000001100100#14
  | .comf f d => 0b001001#6 ++ d.bit ++ f
  | .decf f d => 0b000011#6 ++ d.bit ++ f
  | .decfsz f d => 0b001011#6 ++ d.bit ++ f
  | .goto k => 0b101#3 ++ k
  | .incf f d => 0b001010#6 ++ d.bit ++ f
  | .incfsz f d => 0b001111#6 ++ d.bit ++ f
  | .iorlw k => 0b111000#6 ++ k
  | .iorwf f d => 0b000100#6 ++ d.bit ++ f
  | .movlw k => 0b110000#6 ++ k
  | .movf f d => 0b001000#6 ++ d.bit ++ f
  | .movwf f => 0b0000001#7 ++ f
  | .nop => 0b00000000000000#14
  | .retfie => 0b00000000001001#14
  | .retlw k => 0b110100#6 ++ k
  | .ret => 0b00000000001000#14
  | .rlf f d => 0b001101#6 ++ d.bit ++ f
  | .rrf f d => 0b001100#6 ++ d.bit ++ f
  | .sleep => 0b00000001100011#14
  | .sublw k => 0b111100#6 ++ k
  | .subwf f d => 0b000010#6 ++ d.bit ++ f
  | .swapf f d => 0b001110#6 ++ d.bit ++ f
  | .xorlw k => 0b111010#6 ++ k
  | .xorwf f d => 0b000110#6 ++ d.bit ++ f
  | .option => 0b00000000000010#14
  | .tris f => 0b00000000000#11 ++ f

/-- Which core has the instruction's word. -/
def Instr.range : Instr → CoreRange
  | .addlw _ | .andlw _ | .iorlw _ | .movlw _ | .retlw _ | .sublw _ | .xorlw _ => .mid
  | .addwf _ _ | .andwf _ _ | .comf _ _ | .decf _ _ | .decfsz _ _ | .incf _ _ | .incfsz _ _ => .mid
  | .iorwf _ _ | .movf _ _ | .rlf _ _ | .rrf _ _ | .subwf _ _ | .swapf _ _ | .xorwf _ _ => .mid
  | .bcf _ _ | .bsf _ _ | .btfsc _ _ | .btfss _ _ => .mid
  | .clrf _ | .movwf _ => .mid
  | .call _ | .goto _ => .mid
  | .clrw | .clrwdt | .nop | .retfie | .ret | .sleep => .mid
  | .option | .tris _ => .low

/-! ### What a core's instructions are -/

/-- The widths of a core's operand fields: `f`, `b`, a literal `k`, the `k` of CALL and GOTO. -/
structure FieldWidths where
  f : Nat
  b : Nat
  k : Nat
  jump : Nat
deriving DecidableEq, Repr

/-- 7, 3, 8 and 11 bits in the mid range (R62 to R66); 5, 3, 8 and 9 in the low range, whose bank has 32 registers (R144). -/
def fieldWidths : CoreRange → FieldWidths
  | .mid => { f := 7, b := 3, k := 8, jump := 11 }
  | .low => { f := 5, b := 3, k := 8, jump := 9 }

/-- The instruction is one of the core's: its set has it (R1, R2, R135) and each operand fits the core's field (R144). The
constructors' own types are the wider mid-range fields. -/
def Instr.onCore (r : CoreRange) : Instr → Bool
  | .andlw k | .iorlw k | .movlw k | .retlw k | .xorlw k => decide (k.toNat < 2 ^ (fieldWidths r).k)
  | .addlw k | .sublw k => decide (r = .mid) && decide (k.toNat < 2 ^ (fieldWidths r).k)
  | .addwf f _ | .andwf f _ | .comf f _ | .decf f _ | .decfsz f _ => decide (f.toNat < 2 ^ (fieldWidths r).f)
  | .incf f _ | .incfsz f _ | .iorwf f _ | .movf f _ | .rlf f _ => decide (f.toNat < 2 ^ (fieldWidths r).f)
  | .rrf f _ | .subwf f _ | .swapf f _ | .xorwf f _ => decide (f.toNat < 2 ^ (fieldWidths r).f)
  | .clrf f | .movwf f => decide (f.toNat < 2 ^ (fieldWidths r).f)
  | .bcf f b | .bsf f b | .btfsc f b | .btfss f b =>
    decide (f.toNat < 2 ^ (fieldWidths r).f) && decide (b.toNat < 2 ^ (fieldWidths r).b)
  | .call k | .goto k => decide (k.toNat < 2 ^ (fieldWidths r).jump)
  | .clrw | .clrwdt | .nop | .sleep => true
  | .retfie | .ret => decide (r = .mid)
  | .option => decide (r = .low)
  | .tris f => decide (r = .low) && (Instr.tris f).wellFormed

/-! ### The opcode map as a table -/

/-- A row of R70: a word `w` is the instruction exactly when `w &&& mask = bits`; `dontCare` marks its `x` positions
(R69). -/
structure OpcodeRow where
  bits : InstrWord
  mask : InstrWord
  dontCare : InstrWord
deriving DecidableEq, Repr

/-- The 35 rows of R70, in its order. -/
def opcodeMap : List OpcodeRow :=
  [⟨0x3E00, 0x3E00, 0x0100⟩, ⟨0x0700, 0x3F00, 0⟩, ⟨0x3900, 0x3F00, 0⟩, ⟨0x0500, 0x3F00, 0⟩, ⟨0x1000, 0x3C00, 0⟩,
   ⟨0x1400, 0x3C00, 0⟩, ⟨0x1800, 0x3C00, 0⟩, ⟨0x1C00, 0x3C00, 0⟩, ⟨0x2000, 0x3800, 0⟩] ++
  [⟨0x0180, 0x3F80, 0⟩, ⟨0x0100, 0x3F80, 0x007F⟩, ⟨0x0064, 0x3FFF, 0⟩, ⟨0x0900, 0x3F00, 0⟩, ⟨0x0300, 0x3F00, 0⟩,
   ⟨0x0B00, 0x3F00, 0⟩, ⟨0x2800, 0x3800, 0⟩, ⟨0x0A00, 0x3F00, 0⟩, ⟨0x0F00, 0x3F00, 0⟩] ++
  [⟨0x3800, 0x3F00, 0⟩, ⟨0x0400, 0x3F00, 0⟩, ⟨0x3000, 0x3C00, 0x0300⟩, ⟨0x0800, 0x3F00, 0⟩, ⟨0x0080, 0x3F80, 0⟩,
   ⟨0x0000, 0x3F9F, 0x0060⟩, ⟨0x0009, 0x3FFF, 0⟩, ⟨0x3400, 0x3C00, 0x0300⟩, ⟨0x0008, 0x3FFF, 0⟩] ++
  [⟨0x0D00, 0x3F00, 0⟩, ⟨0x0C00, 0x3F00, 0⟩, ⟨0x0063, 0x3FFF, 0⟩, ⟨0x3C00, 0x3E00, 0x0100⟩, ⟨0x0200, 0x3F00, 0⟩,
   ⟨0x0E00, 0x3F00, 0⟩, ⟨0x3A00, 0x3F00, 0⟩, ⟨0x0600, 0x3F00, 0⟩]

/-- The word is one of the row's (R70). -/
def OpcodeRow.holds (r : OpcodeRow) (w : InstrWord) : Bool := w &&& r.mask == r.bits

/-- The row of an instruction. The low range's words (R75) are fixed, or have the field `fff` in bits 2:0. -/
def Instr.row : Instr → OpcodeRow
  | .addlw _ => ⟨0x3E00, 0x3E00, 0x0100⟩
  | .addwf _ _ => ⟨0x0700, 0x3F00, 0⟩
  | .andlw _ => ⟨0x3900, 0x3F00, 0⟩
  | .andwf _ _ => ⟨0x0500, 0x3F00, 0⟩
  | .bcf _ _ => ⟨0x1000, 0x3C00, 0⟩
  | .bsf _ _ => ⟨0x1400, 0x3C00, 0⟩
  | .btfsc _ _ => ⟨0x1800, 0x3C00, 0⟩
  | .btfss _ _ => ⟨0x1C00, 0x3C00, 0⟩
  | .call _ => ⟨0x2000, 0x3800, 0⟩
  | .clrf _ => ⟨0x0180, 0x3F80, 0⟩
  | .clrw => ⟨0x0100, 0x3F80, 0x007F⟩
  | .clrwdt => ⟨0x0064, 0x3FFF, 0⟩
  | .comf _ _ => ⟨0x0900, 0x3F00, 0⟩
  | .decf _ _ => ⟨0x0300, 0x3F00, 0⟩
  | .decfsz _ _ => ⟨0x0B00, 0x3F00, 0⟩
  | .goto _ => ⟨0x2800, 0x3800, 0⟩
  | .incf _ _ => ⟨0x0A00, 0x3F00, 0⟩
  | .incfsz _ _ => ⟨0x0F00, 0x3F00, 0⟩
  | .iorlw _ => ⟨0x3800, 0x3F00, 0⟩
  | .iorwf _ _ => ⟨0x0400, 0x3F00, 0⟩
  | .movlw _ => ⟨0x3000, 0x3C00, 0x0300⟩
  | .movf _ _ => ⟨0x0800, 0x3F00, 0⟩
  | .movwf _ => ⟨0x0080, 0x3F80, 0⟩
  | .nop => ⟨0x0000, 0x3F9F, 0x0060⟩
  | .retfie => ⟨0x0009, 0x3FFF, 0⟩
  | .retlw _ => ⟨0x3400, 0x3C00, 0x0300⟩
  | .ret => ⟨0x0008, 0x3FFF, 0⟩
  | .rlf _ _ => ⟨0x0D00, 0x3F00, 0⟩
  | .rrf _ _ => ⟨0x0C00, 0x3F00, 0⟩
  | .sleep => ⟨0x0063, 0x3FFF, 0⟩
  | .sublw _ => ⟨0x3C00, 0x3E00, 0x0100⟩
  | .subwf _ _ => ⟨0x0200, 0x3F00, 0⟩
  | .swapf _ _ => ⟨0x0E00, 0x3F00, 0⟩
  | .xorlw _ => ⟨0x3A00, 0x3F00, 0⟩
  | .xorwf _ _ => ⟨0x0600, 0x3F00, 0⟩
  | .option => ⟨0x0002, 0x3FFF, 0⟩
  | .tris _ => ⟨0x0000, 0x3FF8, 0⟩

/-! ### From a source line -/

/-- The bit `d` as written: 0 is W, 1 is `f` (R62). -/
def Dest.written (d : Nat) : Dest := if d = 0 then .w else .f

/-- The instruction of a source line whose operands are in range; each number is its field (R68). -/
def SourceInstr.instr : SourceInstr → Instr
  | .addlw k => .addlw (.ofNat 8 k)
  | .addwf f d => .addwf (.ofNat 7 f) (.written d)
  | .andlw k => .andlw (.ofNat 8 k)
  | .andwf f d => .andwf (.ofNat 7 f) (.written d)
  | .bcf f b => .bcf (.ofNat 7 f) (.ofNat 3 b)
  | .bsf f b => .bsf (.ofNat 7 f) (.ofNat 3 b)
  | .btfsc f b => .btfsc (.ofNat 7 f) (.ofNat 3 b)
  | .btfss f b => .btfss (.ofNat 7 f) (.ofNat 3 b)
  | .call k => .call (.ofNat 11 k)
  | .clrf f => .clrf (.ofNat 7 f)
  | .clrw => .clrw
  | .clrwdt => .clrwdt
  | .comf f d => .comf (.ofNat 7 f) (.written d)
  | .decf f d => .decf (.ofNat 7 f) (.written d)
  | .decfsz f d => .decfsz (.ofNat 7 f) (.written d)
  | .goto k => .goto (.ofNat 11 k)
  | .incf f d => .incf (.ofNat 7 f) (.written d)
  | .incfsz f d => .incfsz (.ofNat 7 f) (.written d)
  | .iorlw k => .iorlw (.ofNat 8 k)
  | .iorwf f d => .iorwf (.ofNat 7 f) (.written d)
  | .movlw k => .movlw (.ofNat 8 k)
  | .movf f d => .movf (.ofNat 7 f) (.written d)
  | .movwf f => .movwf (.ofNat 7 f)
  | .nop => .nop
  | .retfie => .retfie
  | .retlw k => .retlw (.ofNat 8 k)
  | .ret => .ret
  | .rlf f d => .rlf (.ofNat 7 f) (.written d)
  | .rrf f d => .rrf (.ofNat 7 f) (.written d)
  | .sleep => .sleep
  | .sublw k => .sublw (.ofNat 8 k)
  | .subwf f d => .subwf (.ofNat 7 f) (.written d)
  | .swapf f d => .swapf (.ofNat 7 f) (.written d)
  | .xorlw k => .xorlw (.ofNat 8 k)
  | .xorwf f d => .xorwf (.ofNat 7 f) (.written d)
  | .option => .option
  | .tris f => .tris (.ofNat 3 f)

/-- A tool's step from a source line to its word: an operand outside its range "has no encoding; a tool must reject it
rather than truncate it" (R77). -/
def SourceInstr.assemble (i : SourceInstr) : Option InstrWord :=
  if i.inRange then some (encode i.instr) else none

/-! ### The host's view of a word of the opcode table -/

/-- Which core reads the word `w` of an opcode-table row. The table lists the mid range's rows and, with 12 bits, the low
range's two: a word the mid-range decoder has is the mid range's, and one that only the low range has is the low range's
(log 15). -/
def tableRange (nbits w : Nat) : CoreRange :=
  if nbits ≤ 12 then .low
  else
    match decode (.ofNat 14 w), decodeLow (.ofNat 14 w) with
    | .ok _, _ => .mid
    | .error _, .ok _ => .low
    | .error _, .error _ => .mid

/-- The instruction the decoder reads from an opcode-table row's word. One word is one instruction, so no bit above the
word may be set (R60). -/
def decodeTableWord (nbits w : Nat) : Option Instr :=
  if w < 2 ^ 14 then
    match decodeFor (tableRange nbits w) (.ofNat 14 w) with
    | .ok i => some i
    | .error _ => none
  else none

end Sys2Proof
end

