-- ==== Sys2Proof/Machine/Memory.lean ====
section
/-! DEFINITION. Memory: the two address spaces (R40) as sparse lists of (address, content) in one canonical form: addresses
strictly rising, and no entry equal to what an unlisted address reads as. One definition serves both: the data area has
cells of 8 bits (R44), the instruction memory of 14 (R41). An unlisted cell reads as 0 (logs 1 and 4). -/

namespace Sys2Proof.Machine

/-- The contents of one address space. -/
abbrev Cells (n : Nat) := List (Nat × BitVec n)

/-- The storage of the data area's general-purpose registers (R44). -/
abbrev Memory := List Host.Cell

/-- The instruction memory (R41). -/
abbrev ProgMemory := Cells 14

/-- What an unlisted address reads as: 0. For a general-purpose register this is the value the model names for reset,
where the spec leaves it unspecified (R36; log 1); for an instruction word, the filler of a program that lists only some
addresses (log 4). -/
def Cells.blank {n : Nat} : BitVec n := 0

/-- The content at an address. -/
def Cells.read {n : Nat} : Cells n → Nat → BitVec n
  | [], _ => Cells.blank
  | (b, v) :: m, a => if a = b then v else Cells.read m a

/-- The contents without the entries at an address. -/
def Cells.erase {n : Nat} : Cells n → Nat → Cells n
  | [], _ => []
  | (b, v) :: m, a => if a = b then Cells.erase m a else (b, v) :: Cells.erase m a

/-- Put an entry before the first one of a higher address. -/
def Cells.insert {n : Nat} : Cells n → Nat → BitVec n → Cells n
  | [], a, v => [(a, v)]
  | (b, u) :: m, a, v => if a < b then (a, v) :: (b, u) :: m else (b, u) :: Cells.insert m a v

/-- Write one cell, keeping the canonical form: writing what an unlisted address reads as removes the entry. -/
def Cells.write {n : Nat} (m : Cells n) (a : Nat) (v : BitVec n) : Cells n :=
  if v = Cells.blank then Cells.erase m a else Cells.insert (Cells.erase m a) a v

/-- The canonical form: addresses strictly rising, no entry that an unlisted address would read as. -/
def Cells.wf {n : Nat} : Cells n → Bool
  | [] => true
  | (a, v) :: m => (v != Cells.blank) && m.all (fun e => decide (a < e.1)) && Cells.wf m

/-- The canonical form of the data area's storage. -/
abbrev Memory.wf (m : Memory) : Bool := Cells.wf m

end Sys2Proof.Machine
end

