-- ==== Sys2Proof/Machine/State.lean ====
section
/-! DEFINITION. State: everything the spec gives the machine (spec/10_state.md section 1), the launch's open parameters, and
the environment's answers; the closed lists of faults and refusals; the state after reset (R35). Plain data throughout. -/

namespace Sys2Proof.Machine

/-- The machine "has no synchronous exception" (R145) and "this machine has none" (spec/93 part 1): no step faults, so
the type has no constructor. Nothing raises it. -/
inductive Fault : Type
deriving DecidableEq, Repr

/-- Why a step stops without a next state. The first ten after `notModelled` are the closed list of R146, in which "a
refusal is not something the hardware does; it is the spec saying that it gives the situation no meaning". All are safe:
the model stops where the chip goes on. -/
inductive Refusal where
  /-- Raised by an arm of `exec` that has no meaning yet. Safe. No arm raises it. -/
  | notModelled (mnemonic : String)
  /-- Raised by the fetch: the word matches no row of the mid-range opcode map (R73). Safe. -/
  | illegalInstruction (w : InstrWord)
  /-- Raised by the fetch: `pc >= PROG_WORDS` (R17). Safe. -/
  | fetchOutOfRange (pc : ProgAddr)
  /-- Raised by a data access: the address is of class UNMODELLED (R12, R48, R49). Safe. -/
  | unmodelledAddress (a : DataAddr)
  /-- Raised by a data access at 0x02 (R14). Safe. -/
  | pclAccess
  /-- Raised by an indirect access with `FSR[7] = 1` (R47). Safe. -/
  | bankedIndirect
  /-- Raised by an indirect access with `FSR[6:0] = 0` (R47). Safe. -/
  | indirectThroughIndf
  /-- Raised by a write to STATUS that would change bits 7:3 (R28). Safe. -/
  | statusWrite (v : Byte)
  /-- Raised by a flag-affecting instruction whose `f` destination is STATUS (R83). Safe. -/
  | statusDestCollision
  /-- Raised by a push onto a full return stack (R19). Safe. -/
  | stackOverflow
  /-- Raised by a pop of the empty return stack (R20). Safe. -/
  | stackUnderflow
  /-- Raised by a step whose launch parameters break R12: "a launch whose parameters break this is rejected before the
  run". Safe. -/
  | launchRejected
  /-- Raised by a step whose launch has the watchdog enabled: "a model must either refuse the launch or ..." (R156). Safe. -/
  | watchdogEnabled
  /-- Raised by the fetch of a low-range core: a word other than OPTION's and TRIS's, whose encoding is in no source
  (R75, spec/91 N20). Safe. -/
  | lowRangeEncoding (w : InstrWord)
  /-- Raised by TRIS with an operand other than 5, 6, 7, which no word decodes to: "the values 0 to 4 of the fff field
  are not TRIS" (R137). Safe. -/
  | trisOperand (f : BitNum)
deriving DecidableEq, Repr

/-- Whether the core fetches (R32). -/
inductive RunState where
  | running
  | sleeping
deriving DecidableEq, Repr

/-- How the environment answers for ever (log 6). -/
inductive Thereafter where
  /-- These answers in turn, again and again; `others` is empty where the answer is always the same. -/
  | repeating (first : Bool) (others : List Bool)
  /-- Answers that no law binds: a source's, from its question number `asked` on (R150, R161). -/
  | free (source asked : Nat)
deriving DecidableEq, Repr

/-- The environment's answers to one question (`IrqRequest`, R150; `WakeEvent`, R161), one for each time it will be asked:
first the list, then `thereafter` for ever (log 6). -/
structure Answers where
  upcoming : List Bool
  thereafter : Thereafter
deriving DecidableEq, Repr

/-- "Default never" (R150, R161). -/
def Answers.never : Answers := { upcoming := [], thereafter := .repeating false [] }

/-- The state of the machine. The names are those of spec/00_scope.md section 5.2. -/
structure State where
  /-- The working register W (R10). -/
  w : Byte
  /-- The program counter (R13), its low byte named PCL (R14). -/
  pc : ProgAddr
  /-- The return stack, top first (R18). -/
  stack : List ProgAddr
  /-- The carry flag C (R23). -/
  c : Bool
  /-- The digit-carry flag DC (R24). -/
  dc : Bool
  /-- The zero flag Z (R22). -/
  z : Bool
  /-- /TO, active low (R25). -/
  nTO : Bool
  /-- /PD, active low (R26). -/
  nPD : Bool
  /-- The global interrupt enable (R29). -/
  gie : Bool
  /-- The watchdog counter (R30; log 10). -/
  wdt : Nat
  /-- The watchdog's prescaler (R30; log 10). -/
  wdtps : Nat
  /-- The indirect-address register FSR (R31). -/
  fsr : Byte
  /-- Running or Sleeping (R32). -/
  run : RunState
  /-- The general-purpose registers of the data area (R11, R44). -/
  data : Memory
  /-- The instruction memory (R41); no step writes it (R42). -/
  prog : ProgMemory
  /-- The OPTION register of the low range (R136). -/
  option : Byte
  /-- TRISA of the low range (R137). -/
  trisa : Byte
  /-- TRISB of the low range (R137). -/
  trisb : Byte
  /-- TRISC of the low range (R137). -/
  trisc : Byte
  /-- PA2 to PA0 of the low range, the upper part of a jump's target (R141); no rule of the spec says where they are
  written (log 13). -/
  pa : BitVec 3
  /-- The launch's open parameters (log 5). -/
  params : Params
  /-- `IrqRequest` at the coming instruction boundaries (R150; the model's own, log 6). -/
  irq : Answers
  /-- `WakeEvent` at the coming boundaries while Sleeping (R161; the model's own, log 6). -/
  wake : Answers
  /-- How many free values reads of GIEREG have taken (R29; the model's own, log 11). -/
  foreignReads : Nat
  /-- The bytes that writes of GIEREG handed to the environment, newest first (R29; the model's own, log 11). -/
  foreignWrites : List Byte
deriving DecidableEq, Repr

/-- The machine right after the power-on reset (R35). `pc`, `run`, `stack`, `gie`, `nTO`, `nPD`, `wdt`, `wdtps` are the
table's; W, the flags C, DC, Z, FSR and the general-purpose registers, which R36 leaves unspecified, are 0 (log 1), as are
the low range's registers (log 2). The instruction memory lists no word (log 4); the parameters are the reference
machine's (R34, log 5). -/
def State.reset : State :=
  { w := 0, pc := 0x000, stack := [], c := false, dc := false, z := false, nTO := true, nPD := true, gie := false,
    wdt := 0, wdtps := 0, fsr := 0, run := .running, data := [], prog := [], option := 0, trisa := 0, trisb := 0,
    trisc := 0, pa := 0, params := .reference, irq := .never, wake := .never, foreignReads := 0, foreignWrites := [] }

end Sys2Proof.Machine
end

