-- ==== Sys2Proof/Machine/Flags.lean ====
section
/-! DEFINITION. Flags: the 8-bit add and subtract with their carries (R80, R81), the results of the other operations, and
which flags each kind of operation assigns (R37). -/

namespace Sys2Proof.Machine

/-- `(r, c, dc)` of R80 and R81. -/
structure Sum8 where
  r : Byte
  c : Bool
  dc : Bool
deriving DecidableEq, Repr

/-- `Add8(a, b)` (R80): the sum modulo 256, the carry out of bit 7, the carry out of bit 3. -/
def add8 (a b : Byte) : Sum8 :=
  let s := a.setWidth 9 + b.setWidth 9
  let n := (a.extractLsb' 0 4).setWidth 5 + (b.extractLsb' 0 4).setWidth 5
  { r := s.setWidth 8, c := s[8], dc := n[4] }

/-- `Sub8(a, b)` (R81), `a - b` by complement and add: the subtrahend is complemented and added with a carry-in of 1. -/
def sub8 (a b : Byte) : Sum8 :=
  let nb := ~~~b
  let s := a.setWidth 9 + nb.setWidth 9 + 1
  let n := (a.extractLsb' 0 4).setWidth 5 + (nb.extractLsb' 0 4).setWidth 5 + 1
  { r := s.setWidth 8, c := s[8], dc := n[4] }

/-- The result of an operation and the flags it assigns; `none` is a flag the operation leaves alone (R37). -/
structure AluResult where
  value : Byte
  c : Option Bool := none
  dc : Option Bool := none
  z : Option Bool := none
deriving DecidableEq, Repr

/-- Assigns C, DC and Z: ADDLW, ADDWF, SUBLW, SUBWF (R37). -/
def AluResult.arith (x : Sum8) : AluResult := { value := x.r, c := some x.c, dc := some x.dc, z := some (x.r == 0) }

/-- Assigns Z alone: 1 for a zero result, 0 otherwise (R22). -/
def AluResult.testZ (r : Byte) : AluResult := { value := r, z := some (r == 0) }

/-- Assigns C alone: RLF, RRF (R94, R95). -/
def AluResult.rotated (r : Byte) (c : Bool) : AluResult := { value := r, c := some c }

/-- Assigns no flag. -/
def AluResult.plain (r : Byte) : AluResult := { value := r }

/-- `v[6:0] : C`, the old bit 7 leaving into C (R94). -/
def rotateLeft (c : Bool) (v : Byte) : AluResult :=
  .rotated (v.extractLsb' 0 7 ++ BitVec.ofBool c) (v[7])

/-- `C : v[7:1]`, the old bit 0 leaving into C (R95). -/
def rotateRight (c : Bool) (v : Byte) : AluResult :=
  .rotated (BitVec.ofBool c ++ v.extractLsb' 1 7) (v[0])

/-- `v[3:0] : v[7:4]` (R97). -/
def swapNibbles (v : Byte) : Byte := v.extractLsb' 0 4 ++ v.extractLsb' 4 4

/-- `v | (1 << b)` (R102). -/
def setBit (b : BitNum) (v : Byte) : Byte := v ||| (1#8 <<< b.toNat)

/-- `v & ~(1 << b)` (R101). -/
def clearBit (b : BitNum) (v : Byte) : Byte := v &&& ~~~(1#8 <<< b.toNat)

/-- `v` with bit `b` made `x`. -/
def putBit (b : BitNum) (x : Bool) (v : Byte) : Byte := if x then setBit b v else clearBit b v

/-- `v[b]`. -/
def testBit (b : BitNum) (v : Byte) : Bool := v.getLsbD b.toNat

/-- Assign the flags an operation assigns, and leave the others (R37). -/
def State.withFlags (s : State) (r : AluResult) : State :=
  { s with c := r.c.getD s.c, dc := r.dc.getD s.dc, z := r.z.getD s.z }

/-- What a read of STATUS returns: `0b000 : nTO : nPD : Z : DC : C` (R27, R28). -/
def State.statusByte (s : State) : Byte :=
  0b000#3 ++ BitVec.ofBool s.nTO ++ BitVec.ofBool s.nPD ++ BitVec.ofBool s.z ++ BitVec.ofBool s.dc ++ BitVec.ofBool s.c

end Sys2Proof.Machine
end

