-- ==== Sys2Proof/Machine/Ops.lean ====
section
/-! DEFINITION. Ops: the named operations over registers and memory: the address classes (R12) and the access
primitives (R48, R49), the program counter's advance (R16) and jump targets (R120, R121, R141), the return stack (R18
to R20), interrupt entry (R149) and the return from it (R122, R152), the power-on reset (R35, R165) and the checks of
a launch (R12, R156). An operation that the spec refuses answers with the refusal and no state: "a refused instruction
changes no state" (R146). -/

namespace Sys2Proof.Machine

/-- The step's outcome of an operation that either gives a state or is refused (R146). -/
def settle : Except Refusal State → Host.Outcome State Fault Refusal
  | .ok s => .next s
  | .error r => .refused r

/-! ### Data addresses -/

/-- INDF, the `f` that selects the indirect mode (R47). -/
abbrev indfAddr : DataAddr := 0x00#7

/-- PCL (R14). -/
abbrev pclAddr : DataAddr := 0x02#7

/-- STATUS (R27). -/
abbrev statusAddr : DataAddr := 0x03#7

/-- FSR (R31). -/
abbrev fsrAddr : DataAddr := 0x04#7

/-- The classes of R12. -/
inductive AddrClass where
  | indf
  | pcl
  | status
  | fsr
  | gpr
  /-- The register that holds GIE, at the given bit (R29). -/
  | gieReg (bit : BitNum)
  | unmodelled
deriving DecidableEq, Repr

/-- The address is in `GPR_LO..GPR_HI`. -/
def isGpr (p : Params) (a : DataAddr) : Bool := decide (p.gprLo.toNat ≤ a.toNat) && decide (a.toNat ≤ p.gprHi.toNat)

/-- The bit of GIE at this address, when `GIE_MAP` puts it here. -/
def gieBitAt (p : Params) (a : DataAddr) : Option BitNum :=
  match p.gieMap with
  | some m => if m.addr = a then some m.bit else none
  | none => none

/-- The class of a data address (R12). The classes are disjoint under the launch's check. -/
def classOf (p : Params) (a : DataAddr) : AddrClass :=
  if a = indfAddr then .indf
  else if a = pclAddr then .pcl
  else if a = statusAddr then .status
  else if a = fsrAddr then .fsr
  else if isGpr p a then .gpr
  else
    match gieBitAt p a with
    | some i => .gieReg i
    | none => .unmodelled

/-! ### The access primitives -/

/-- `MemRead(a, 1)` (R48): the byte, and the state after the read. Only a read of GIEREG changes the state: it takes a
free value for the seven foreign bits (R29, log 11). -/
def memRead (a : DataAddr) (s : State) : Except Refusal (Byte × State) :=
  match classOf s.params a with
  | .gpr => .ok (Cells.read s.data a.toNat, s)
  | .fsr => .ok (s.fsr, s)
  | .status => .ok (s.statusByte, s)
  | .pcl => .error .pclAccess
  | .gieReg i =>
    .ok (putBit i s.gie (Config.foreignByte s.foreignReads), { s with foreignReads := s.foreignReads + 1 })
  | .unmodelled => .error (.unmodelledAddress a)
  | .indf => .error .indirectThroughIndf

/-- The write half of STATUS (R28): refused if bits 7:3 of the value differ from the current ones; else Z, DC and C take
bits 2, 1, 0. On a low-range state too, the model's choice: R142 says that a write of STATUS differs there,
not how (log 20). -/
def writeStatus (v : Byte) (s : State) : Except Refusal State :=
  if v.extractLsb' 3 5 = s.statusByte.extractLsb' 3 5 then
    .ok { s with z := v[2], dc := v[1], c := v[0] }
  else .error (.statusWrite v)

/-- `MemWrite(a, 1, v)` (R49). A write of GIEREG assigns GIE and hands the other seven bits to the environment (R29,
log 11). On a low-range state STATUS, FSR and the classes of the other addresses are the mid range's too, the model's choice:
R142 says that writes of STATUS and FSR differ between the ranges, not how (log 20). -/
def memWrite (a : DataAddr) (v : Byte) (s : State) : Except Refusal State :=
  match classOf s.params a with
  | .gpr => .ok { s with data := Cells.write s.data a.toNat v }
  | .fsr => .ok { s with fsr := v }
  | .status => writeStatus v s
  | .pcl => .error .pclAccess
  | .gieReg i => .ok { s with gie := testBit i v, foreignWrites := clearBit i v :: s.foreignWrites }
  | .unmodelled => .error (.unmodelledAddress a)
  | .indf => .error .indirectThroughIndf

/-! ### The program counter -/

/-- `pc <- (pc + 1) mod 2^PC_BITS`, how an instruction with no other target ends (R16, R17). -/
def State.advance (s : State) : State := { s with pc := s.pc + 1 }

/-- The skip (R115): past the next instruction when the condition holds, else to it. -/
def State.skipIf (s : State) (taken : Bool) : State := { s with pc := if taken then s.pc + 2 else s.pc + 1 }

/-- The target of a jump to `k`: all 11 bits of it in the mid range (R120, R121); in the low range the 9 bits of its `k`
field (R144) under two upper bits that PA2 to PA0 give, as `page` joins them (R141, log 13). -/
def jumpTarget (page : BitVec 3 → BitVec 9 → BitVec 2) (k : ProgAddr) (s : State) : ProgAddr :=
  match s.params.range with
  | .mid => k
  | .low => page s.pa (k.setWidth 9) ++ k.setWidth 9

/-! ### The return stack -/

/-- `STACK_DEPTH`: 8 in the mid range, 2 in the low range (R18, R143). -/
def stackDepth : CoreRange → Nat
  | .mid => 8
  | .low => 2

/-- `Push(v)` (R19): refused on a full stack (log 16 for a stack longer than full, which no run has). -/
def push (v : ProgAddr) (s : State) : Except Refusal State :=
  if s.stack.length < stackDepth s.params.range then .ok { s with stack := v :: s.stack } else .error .stackOverflow

/-- `Pop()` (R20): the top entry and the state without it; refused on the empty stack. -/
def pop (s : State) : Except Refusal (ProgAddr × State) :=
  match s.stack with
  | [] => .error .stackUnderflow
  | t :: rest => .ok (t, { s with stack := rest })

/-! ### Interrupts -/

/-- `INT_VECTOR` (R147). -/
abbrev intVector : ProgAddr := 0x004

/-- Interrupt entry (R149): the address of the instruction that would have run next is pushed, GIE is cleared, the core
goes to the vector. Nothing else is saved or changed. Refused, by the push, on a full stack. -/
def takeInterrupt (s : State) : Except Refusal State :=
  match push s.pc s with
  | .ok t => .ok { t with gie := false, pc := intVector }
  | .error r => .error r

/-- The return from an interrupt (R122, R152): the return address is popped, GIE is set. It restores nothing else.
Refused, with GIE unchanged, on the empty stack. -/
def returnFromInterrupt (s : State) : Except Refusal State :=
  match pop s with
  | .ok (t, u) => .ok { u with gie := true, pc := t }
  | .error r => .error r

/-! ### The environment's answers -/

/-- The first of the answers given for ever (log 6). -/
def Thereafter.now : Thereafter → Bool
  | .repeating b _ => b
  | .free i n => Config.environmentAnswer i n

/-- The answers given for ever, without the first of them. -/
def Thereafter.rest : Thereafter → Thereafter
  | .repeating b [] => .repeating b []
  | .repeating b (c :: cs) => .repeating c (cs ++ [b])
  | .free i n => .free i (n + 1)

/-- The answer the environment gives now. -/
def Answers.now (a : Answers) : Bool :=
  match a.upcoming with
  | [] => a.thereafter.now
  | b :: _ => b

/-- The answers left after this one. -/
def Answers.rest (a : Answers) : Answers :=
  match a.upcoming with
  | [] => { upcoming := [], thereafter := a.thereafter.rest }
  | _ :: bs => { upcoming := bs, thereafter := a.thereafter }

/-- The answer the environment will give when it has been asked `n` times more. -/
def Answers.answer (a : Answers) : Nat → Bool
  | 0 => a.now
  | n + 1 => a.rest.answer n

/-- The same answers, but for the one given now, which becomes "no". -/
def Answers.declineNow (a : Answers) : Answers := { a.rest with upcoming := false :: a.rest.upcoming }

/-- The environment will never say yes: `never`, whatever answers say so. -/
def Answers.isNever (a : Answers) : Prop := ∀ n, a.answer n = false

/-- At an instruction boundary an interrupt is due when the core is Running, GIE is 1 and `IrqRequest` holds (R149). The
low range has no interrupts (R140). -/
def interruptDue (s : State) : Bool :=
  decide (s.params.range = .mid) && decide (s.run = .running) && s.gie && s.irq.now

/-- The state after the environment was asked for `IrqRequest`, as it is at each boundary while Running (R150, log 8). -/
def State.irqAsked (s : State) : State := { s with irq := s.irq.rest }

/-- A boundary while Sleeping (R161): `WakeEvent` is asked; if it holds, `run <- Running` and nothing else changes; if
not, the core stays asleep (R32; logs 7 and 8). -/
def sleepBoundary (s : State) : State :=
  { s with run := if s.wake.now then .running else .sleeping, wake := s.wake.rest }

/-! ### Reset and launch -/

/-- The reset vector: 0x000 in the mid range (R165), the last address of instruction memory in the low range (R139). -/
def resetVector (p : Params) : ProgAddr :=
  match p.range with
  | .mid => 0x000
  | .low => .ofNat 11 (p.progWords - 1)

/-- The power-on reset of a machine whose unspecified registers hold what they hold in `s` (R35, R36, R165): "a model
takes it as a free input of the launch (any value)". It happens once, at the start of a run (R166); no step is one. -/
def State.powerOn (s : State) : State :=
  { s with pc := resetVector s.params, run := .running, stack := [], gie := false, nTO := true, nPD := true,
           wdt := 0, wdtps := 0 }

/-- R12's condition on the parameters: `GPR_LO..GPR_HI` within 0x05 to 0x7F, `GIE_MAP`'s address outside 0x00 to 0x04 and
outside that range; and `PROG_WORDS` from 1 to 2048 (R17). -/
def paramsValid (p : Params) : Bool :=
  decide (1 ≤ p.progWords) && decide (p.progWords ≤ 2048) &&
  decide (5 ≤ p.gprLo.toNat) && decide (p.gprLo.toNat ≤ p.gprHi.toNat) &&
  (match p.gieMap with
   | none => true
   | some m => decide (4 < m.addr.toNat) && !isGpr p m.addr)

/-- Why a launch with these parameters is refused, if it is (R12, R156). -/
def launchRefusal (p : Params) : Option Refusal :=
  if paramsValid p then (if p.wdtEnabled then some .watchdogEnabled else none) else some .launchRejected

end Sys2Proof.Machine
end

