-- ==== Sys2Proof/Machine/Operands.lean ====
section
/-! DEFINITION. Operands: the addressing modes (R45 to R47), the destination (R82), the status collision (R83), and the
shapes an instruction with an `f` operand has: one read and at most one write at one effective address (R52). The checks
stand in R146's order: the collision, the effective address, the read, the write. -/

namespace Sys2Proof.Machine

/-- `EA(f)` (R46, R47): direct, or through FSR when `f` is 0x00. Bit 7 of FSR is tested first. -/
def effectiveAddress (f : DataAddr) (s : State) : Except Refusal DataAddr :=
  if f = indfAddr then
    if s.fsr[7] then .error .bankedIndirect
    else if s.fsr.extractLsb' 0 7 = 0 then .error .indirectThroughIndf
    else .ok (s.fsr.extractLsb' 0 7)
  else .ok f

/-- The effective address of an instruction that affects a flag and stores to `f`: STATUS is refused before anything
else (R83). The check is on the effective address, so an address that `EA` refuses has no collision (log 17). -/
def storeAddress (affectsFlags : Bool) (f : DataAddr) (s : State) : Except Refusal DataAddr :=
  match effectiveAddress f s with
  | .ok a => if affectsFlags && a == statusAddr then .error .statusDestCollision else .ok a
  | .error r => .error r

/-- The effective address of an instruction with a destination bit: the collision concerns `d = 1` only (R83). -/
def operandAddress (affectsFlags : Bool) (f : DataAddr) (d : Dest) (s : State) : Except Refusal DataAddr :=
  match d with
  | .w => effectiveAddress f s
  | .f => storeAddress affectsFlags f s

/-- `WriteDest(d, a, v)` (R82). -/
def writeDest (d : Dest) (a : DataAddr) (v : Byte) (s : State) : Except Refusal State :=
  match d with
  | .w => .ok { s with w := v }
  | .f => memWrite a v s

/-- A format B instruction up to its advance: read `f`, operate, send the result to the destination, then assign the
flags. Answers with the value sent and the state. -/
def fileOp (affectsFlags : Bool) (op : Byte → AluResult) (f : DataAddr) (d : Dest) (s : State) :
    Except Refusal (Byte × State) := do
  let a ← operandAddress affectsFlags f d s
  let (v, t) ← memRead a s
  let u ← writeDest d a (op v).value t
  pure ((op v).value, u.withFlags (op v))

/-- A format B instruction that goes on at the next instruction. -/
def fileStep (affectsFlags : Bool) (op : Byte → AluResult) (f : DataAddr) (d : Dest) (s : State) :
    Except Refusal State := do
  let (_, t) ← fileOp affectsFlags op f d s
  pure t.advance

/-- A format B instruction that affects no flag and skips when its result is zero (R118, R119). -/
def fileSkip (op : Byte → Byte) (f : DataAddr) (d : Dest) (s : State) : Except Refusal State := do
  let (r, t) ← fileOp false (fun v => .plain (op v)) f d s
  pure (t.skipIf (r == 0))

/-- A format F instruction: `f` is written and not read (R86, R93). -/
def fileStore (affectsFlags : Bool) (r : AluResult) (f : DataAddr) (s : State) : Except Refusal State := do
  let a ← storeAddress affectsFlags f s
  let t ← memWrite a r.value s
  pure (t.withFlags r).advance

/-- BCF and BSF (R100): the whole register is read, changed in at most one bit, and written back. -/
def bitStep (change : Byte → Byte) (f : DataAddr) (s : State) : Except Refusal State := do
  let a ← effectiveAddress f s
  let (v, t) ← memRead a s
  let u ← memWrite a (change v) t
  pure u.advance

/-- BTFSC and BTFSS: the register is read, never written, and a skip follows (R115 to R117). -/
def bitSkip (taken : Byte → Bool) (f : DataAddr) (s : State) : Except Refusal State := do
  let a ← effectiveAddress f s
  let (v, t) ← memRead a s
  pure (t.skipIf (taken v))

/-- A literal instruction, or CLRW: the result goes to W (R45). -/
def literalStep (r : AluResult) (s : State) : State := ({ s with w := r.value }.withFlags r).advance

end Sys2Proof.Machine
end

