-- ==== Sys2Proof/Machine/BitOriented.lean ====
section
/-! DEFINITION. BitOriented: the meanings of spec/41_bit_oriented.md (R100 to R102). -/

namespace Sys2Proof.Machine

/-- BCF f,b (R101). -/
def execBcf (f : DataAddr) (b : BitNum) (s : State) : Host.Outcome State Fault Refusal :=
  settle (bitStep (clearBit b) f s)

/-- BSF f,b (R102). -/
def execBsf (f : DataAddr) (b : BitNum) (s : State) : Host.Outcome State Fault Refusal :=
  settle (bitStep (setBit b) f s)

end Sys2Proof.Machine
end

