-- ==== Sys2Proof/Machine/ByteOriented.lean ====
section
/-! DEFINITION. ByteOriented: the meanings of spec/40_byte_oriented.md (R84 to R98). -/

namespace Sys2Proof.Machine

/-- ADDWF f,d (R84): W plus `f`. -/
def execAddwf (f : DataAddr) (d : Dest) (s : State) : Host.Outcome State Fault Refusal :=
  settle (fileStep true (fun v => .arith (add8 s.w v)) f d s)

/-- ANDWF f,d (R85). -/
def execAndwf (f : DataAddr) (d : Dest) (s : State) : Host.Outcome State Fault Refusal :=
  settle (fileStep true (fun v => .testZ (s.w &&& v)) f d s)

/-- CLRF f (R86): Z is always set, the register is not read. -/
def execClrf (f : DataAddr) (s : State) : Host.Outcome State Fault Refusal :=
  settle (fileStore true (.testZ 0) f s)

/-- CLRW (R87): Z is always set. -/
def execClrw (s : State) : Host.Outcome State Fault Refusal :=
  .next (literalStep (.testZ 0) s)

/-- COMF f,d (R88). -/
def execComf (f : DataAddr) (d : Dest) (s : State) : Host.Outcome State Fault Refusal :=
  settle (fileStep true (fun v => .testZ (~~~v)) f d s)

/-- DECF f,d (R89): Z only, even when the value wraps. -/
def execDecf (f : DataAddr) (d : Dest) (s : State) : Host.Outcome State Fault Refusal :=
  settle (fileStep true (fun v => .testZ (v - 1)) f d s)

/-- INCF f,d (R90): Z only, even when the value wraps. -/
def execIncf (f : DataAddr) (d : Dest) (s : State) : Host.Outcome State Fault Refusal :=
  settle (fileStep true (fun v => .testZ (v + 1)) f d s)

/-- IORWF f,d (R91). -/
def execIorwf (f : DataAddr) (d : Dest) (s : State) : Host.Outcome State Fault Refusal :=
  settle (fileStep true (fun v => .testZ (s.w ||| v)) f d s)

/-- MOVF f,d (R92): with `d = 1` the register is written with its own value. -/
def execMovf (f : DataAddr) (d : Dest) (s : State) : Host.Outcome State Fault Refusal :=
  settle (fileStep true (fun v => .testZ v) f d s)

/-- MOVWF f (R93): affects no flag, the register is not read. -/
def execMovwf (f : DataAddr) (s : State) : Host.Outcome State Fault Refusal :=
  settle (fileStore false (.plain s.w) f s)

/-- RLF f,d (R94): C only. -/
def execRlf (f : DataAddr) (d : Dest) (s : State) : Host.Outcome State Fault Refusal :=
  settle (fileStep true (fun v => rotateLeft s.c v) f d s)

/-- RRF f,d (R95): C only. -/
def execRrf (f : DataAddr) (d : Dest) (s : State) : Host.Outcome State Fault Refusal :=
  settle (fileStep true (fun v => rotateRight s.c v) f d s)

/-- SUBWF f,d (R96): `f` minus W. -/
def execSubwf (f : DataAddr) (d : Dest) (s : State) : Host.Outcome State Fault Refusal :=
  settle (fileStep true (fun v => .arith (sub8 v s.w)) f d s)

/-- SWAPF f,d (R97): affects no flag, so it may write STATUS under R28. -/
def execSwapf (f : DataAddr) (d : Dest) (s : State) : Host.Outcome State Fault Refusal :=
  settle (fileStep false (fun v => .plain (swapNibbles v)) f d s)

/-- XORWF f,d (R98). -/
def execXorwf (f : DataAddr) (d : Dest) (s : State) : Host.Outcome State Fault Refusal :=
  settle (fileStep true (fun v => .testZ (s.w ^^^ v)) f d s)

end Sys2Proof.Machine
end

