-- ==== Sys2Proof/Machine/Control.lean ====
section
/-! DEFINITION. Control: the meanings of spec/43_skip_and_branch.md (R115 to R124). -/

namespace Sys2Proof.Machine

/-- BTFSC f,b (R116): skip if the bit is 0. -/
def execBtfsc (f : DataAddr) (b : BitNum) (s : State) : Host.Outcome State Fault Refusal :=
  settle (bitSkip (fun v => !testBit b v) f s)

/-- BTFSS f,b (R117): skip if the bit is 1. -/
def execBtfss (f : DataAddr) (b : BitNum) (s : State) : Host.Outcome State Fault Refusal :=
  settle (bitSkip (fun v => testBit b v) f s)

/-- DECFSZ f,d (R118): skip if the decremented value is 0; no flag. -/
def execDecfsz (f : DataAddr) (d : Dest) (s : State) : Host.Outcome State Fault Refusal :=
  settle (fileSkip (fun v => v - 1) f d s)

/-- INCFSZ f,d (R119): skip if the incremented value is 0; no flag. -/
def execIncfsz (f : DataAddr) (d : Dest) (s : State) : Host.Outcome State Fault Refusal :=
  settle (fileSkip (fun v => v + 1) f d s)

/-- GOTO k (R120): all 11 bits of `pc`; in the low range with the upper bits from PA2 to PA0 (R141). -/
def execGoto (k : ProgAddr) (s : State) : Host.Outcome State Fault Refusal :=
  .next { s with pc := jumpTarget Config.gotoPage k s }

/-- CALL k (R121): the address after the CALL is pushed; the target as in GOTO (R141). -/
def execCall (k : ProgAddr) (s : State) : Host.Outcome State Fault Refusal :=
  settle (do
    let t ← push (s.pc + 1) s
    pure { t with pc := jumpTarget Config.callPage k s })

/-- RETFIE (R122): does not test whether an interrupt is being served. -/
def execRetfie (s : State) : Host.Outcome State Fault Refusal :=
  settle (returnFromInterrupt s)

/-- RETLW k (R123): on the empty stack W is not changed either. -/
def execRetlw (k : Byte) (s : State) : Host.Outcome State Fault Refusal :=
  settle (do
    let (t, u) ← pop s
    pure { u with w := k, pc := t })

/-- RETURN (R124): W and GIE are unchanged. -/
def execReturn (s : State) : Host.Outcome State Fault Refusal :=
  settle (do
    let (t, u) ← pop s
    pure { u with pc := t })

end Sys2Proof.Machine
end

