-- ==== Sys2Proof/Machine/Literal.lean ====
section
/-! DEFINITION. Literal: the meanings of spec/42_literal.md (R105 to R110). They "can raise no refusal". -/

namespace Sys2Proof.Machine

/-- ADDLW k (R105). -/
def execAddlw (k : Byte) (s : State) : Host.Outcome State Fault Refusal :=
  .next (literalStep (.arith (add8 s.w k)) s)

/-- ANDLW k (R106). -/
def execAndlw (k : Byte) (s : State) : Host.Outcome State Fault Refusal :=
  .next (literalStep (.testZ (s.w &&& k)) s)

/-- IORLW k (R107). -/
def execIorlw (k : Byte) (s : State) : Host.Outcome State Fault Refusal :=
  .next (literalStep (.testZ (s.w ||| k)) s)

/-- MOVLW k (R108): no flag, not even Z when `k = 0`. -/
def execMovlw (k : Byte) (s : State) : Host.Outcome State Fault Refusal :=
  .next (literalStep (.plain k) s)

/-- SUBLW k (R109): the literal minus W. -/
def execSublw (k : Byte) (s : State) : Host.Outcome State Fault Refusal :=
  .next (literalStep (.arith (sub8 k s.w)) s)

/-- XORLW k (R110). -/
def execXorlw (k : Byte) (s : State) : Host.Outcome State Fault Refusal :=
  .next (literalStep (.testZ (s.w ^^^ k)) s)

end Sys2Proof.Machine
end

