-- ==== Sys2Proof/Machine/LowRange.lean ====
section
/-! DEFINITION. LowRange: the meanings of the two instructions of spec/45_low_range.md (R136, R137). The spec gives their
effect and not how `pc` goes on; they advance it as every instruction without a target does (R16, log 12). -/

namespace Sys2Proof.Machine

/-- OPTION (R136): `OPTION <- W`, all eight bits. -/
def execOption (s : State) : Host.Outcome State Fault Refusal :=
  .next { s with option := s.w }.advance

/-- TRIS f (R137): `f` = 5, 6, 7 loads TRISA, TRISB, TRISC. The other values of the field are not TRIS. -/
def execTris (f : BitNum) (s : State) : Host.Outcome State Fault Refusal :=
  match f.toNat with
  | 5 => .next { s with trisa := s.w }.advance
  | 6 => .next { s with trisb := s.w }.advance
  | 7 => .next { s with trisc := s.w }.advance
  | _ => .refused (.trisOperand f)

end Sys2Proof.Machine
end

