-- ==== Sys2Proof/Machine/System.lean ====
section
/-! DEFINITION. System: the meanings of spec/44_system.md (R130 to R132). None can be refused. -/

namespace Sys2Proof.Machine

/-- The watchdog and its prescaler cleared, /TO set, /PD as given: what CLRWDT and SLEEP share (R130, R132). -/
def State.clearWatchdog (s : State) (nPD : Bool) : State := { s with wdt := 0, wdtps := 0, nTO := true, nPD := nPD }

/-- CLRWDT (R130). -/
def execClrwdt (s : State) : Host.Outcome State Fault Refusal :=
  .next (s.clearWatchdog true).advance

/-- NOP (R131): only `pc` advances. -/
def execNop (s : State) : Host.Outcome State Fault Refusal :=
  .next s.advance

/-- SLEEP (R132): the core stops; `pc` holds the address of the instruction after the SLEEP. -/
def execSleep (s : State) : Host.Outcome State Fault Refusal :=
  .next { (s.clearWatchdog false) with run := .sleeping }.advance

end Sys2Proof.Machine
end

