-- ==== Sys2Proof/Machine/Dispatch.lean ====
section
/-! DEFINITION. Dispatch: each instruction to its meaning, one arm per constructor. -/

namespace Sys2Proof.Machine

/-- What an instruction does to a state (spec/40 to spec/45). -/
def exec (i : Instr) (s : State) : Host.Outcome State Fault Refusal :=
  match i with
  | .addlw k => Sys2Proof.Machine.execAddlw k s
  | .addwf f d => Sys2Proof.Machine.execAddwf f d s
  | .andlw k => Sys2Proof.Machine.execAndlw k s
  | .andwf f d => Sys2Proof.Machine.execAndwf f d s
  | .bcf f b => Sys2Proof.Machine.execBcf f b s
  | .bsf f b => Sys2Proof.Machine.execBsf f b s
  | .btfsc f b => Sys2Proof.Machine.execBtfsc f b s
  | .btfss f b => Sys2Proof.Machine.execBtfss f b s
  | .call k => Sys2Proof.Machine.execCall k s
  | .clrf f => Sys2Proof.Machine.execClrf f s
  | .clrw => Sys2Proof.Machine.execClrw s
  | .clrwdt => Sys2Proof.Machine.execClrwdt s
  | .comf f d => Sys2Proof.Machine.execComf f d s
  | .decf f d => Sys2Proof.Machine.execDecf f d s
  | .decfsz f d => Sys2Proof.Machine.execDecfsz f d s
  | .goto k => Sys2Proof.Machine.execGoto k s
  | .incf f d => Sys2Proof.Machine.execIncf f d s
  | .incfsz f d => Sys2Proof.Machine.execIncfsz f d s
  | .iorlw k => Sys2Proof.Machine.execIorlw k s
  | .iorwf f d => Sys2Proof.Machine.execIorwf f d s
  | .movlw k => Sys2Proof.Machine.execMovlw k s
  | .movf f d => Sys2Proof.Machine.execMovf f d s
  | .movwf f => Sys2Proof.Machine.execMovwf f s
  | .nop => Sys2Proof.Machine.execNop s
  | .retfie => Sys2Proof.Machine.execRetfie s
  | .retlw k => Sys2Proof.Machine.execRetlw k s
  | .ret => Sys2Proof.Machine.execReturn s
  | .rlf f d => Sys2Proof.Machine.execRlf f d s
  | .rrf f d => Sys2Proof.Machine.execRrf f d s
  | .sleep => Sys2Proof.Machine.execSleep s
  | .sublw k => Sys2Proof.Machine.execSublw k s
  | .subwf f d => Sys2Proof.Machine.execSubwf f d s
  | .swapf f d => Sys2Proof.Machine.execSwapf f d s
  | .xorlw k => Sys2Proof.Machine.execXorlw k s
  | .xorwf f d => Sys2Proof.Machine.execXorwf f d s
  | .option => Sys2Proof.Machine.execOption s
  | .tris f => Sys2Proof.Machine.execTris f s

end Sys2Proof.Machine
end

