-- ==== Sys2Proof/Machine/Fetch.lean ====
section
/-! DEFINITION. Fetch: the word at `pc` (R43) and the instruction it is (R71, R73), and the load of one word from outside
(log 4). -/

namespace Sys2Proof.Machine

/-- `ProgRead(a)` (R43). -/
def progRead (a : ProgAddr) (s : State) : InstrWord := Cells.read s.prog a.toNat

/-- The fetch: first the range (R17), then the decoder (R73), in R146's order. The fetch has no side effect. -/
def fetch (s : State) : Except Refusal Instr :=
  if s.pc.toNat < s.params.progWords then
    match decodeFor s.params.range (progRead s.pc s) with
    | .ok i => .ok i
    | .error (.illegal w) => .error (.illegalInstruction w)
    | .error (.lowRange w) => .error (.lowRangeEncoding w)
  else .error (.fetchOutOfRange s.pc)

/-- One boundary of a Running core, and what follows it (R149): an interrupt that is due is taken instead of a fetch;
else the instruction at `pc` is fetched and executed. -/
def runBoundary (s : State) : Host.Outcome State Fault Refusal :=
  if interruptDue s then settle (takeInterrupt s.irqAsked)
  else
    match fetch s with
    | .ok i => exec i s.irqAsked
    | .error r => .refused r

/-- The machine with the word of an opcode-table row loaded at `pc`, of the core that has that word (logs 4 and 15), awake
and with no interrupt due, so that the next step fetches it. What is already so is left as it is. -/
def loadWord (nbits w : Nat) (s : State) : State :=
  let p := { s.params with range := tableRange nbits w, progWords := max s.params.progWords (s.pc.toNat + 1) }
  let t := { s with params := p, run := .running, prog := Cells.write s.prog s.pc.toNat (.ofNat 14 w) }
  if interruptDue t then { t with irq := t.irq.declineNow } else t

end Sys2Proof.Machine
end

