-- ==== Sys2Proof/Machine/Step.lean ====
section
/-! DEFINITION. Step: one step of the machine, and the host's load of one word. -/

namespace Sys2Proof.Machine

/-- One step: an instruction, an interrupt entry, or a boundary while Sleeping (R149, R151, R161). A launch the spec
refuses makes no step (R12, R156; log 5). -/
def step (s : State) : Host.Outcome State Fault Refusal :=
  match launchRefusal s.params with
  | some r => .refused r
  | none =>
    match s.run with
    | .sleeping => .next (sleepBoundary s)
    | .running => runBoundary s

/-- The state with the word of an opcode-table row stored where the next step fetches (log 4). -/
def State.withFetchWord (s : State) (nbits w : Nat) : State := loadWord nbits w s

end Sys2Proof.Machine
end

