-- ==== Sys2Proof/Machine/Timing.lean ====
section
/-! DEFINITION. Timing: the instruction cycles of R172, as information about an instruction and the states before and
after it. "No rule of the model depends on timing" (R173), so they are not state. -/

namespace Sys2Proof.Machine

/-- Instruction cycles (R171, R172), for an instruction that takes `s` to `t`: 2 for the transfers and for a skip that is
taken, else 1. The source gives none for OPTION and TRIS (log 14). -/
def cycles (i : Instr) (s t : State) : Option Nat :=
  match i with
  | .call _ | .goto _ | .retfie | .retlw _ | .ret => some 2
  | .btfsc _ _ | .btfss _ _ | .decfsz _ _ | .incfsz _ _ => some (if t.pc = s.pc + 2 then 2 else 1)
  | .addlw _ | .andlw _ | .iorlw _ | .movlw _ | .sublw _ | .xorlw _ => some 1
  | .addwf _ _ | .andwf _ _ | .comf _ _ | .decf _ _ | .incf _ _ | .iorwf _ _ | .movf _ _ => some 1
  | .rlf _ _ | .rrf _ _ | .subwf _ _ | .swapf _ _ | .xorwf _ _ => some 1
  | .bcf _ _ | .bsf _ _ | .clrf _ | .movwf _ => some 1
  | .clrw | .clrwdt | .nop | .sleep => some 1
  | .option | .tris _ => none

/-- Periods of the main clock in an instruction cycle (R171). -/
def clockPeriodsPerCycle : Nat := 4

end Sys2Proof.Machine
end

