-- ==== Sys2Proof/Safety.lean ====
section
/-! DEFINITION. Safety: the end of a run (R174), a run that goes wrong (R146), and the invariant of every reachable state,
in the terms the claims use. -/

namespace Sys2Proof.Machine

/-- "A run is at its end when `run = Sleeping` ... and the environment has no wake-up to offer" (R174). -/
def State.ended (s : State) : Prop := s.run = .sleeping ∧ s.wake.isNever

/-- The run of at most `k` steps from `s` meets no refusal: "a run that is refused ... has gone wrong" (R174). -/
def SafeFor : Nat → State → Prop
  | 0, _ => True
  | k + 1, s => ∃ t, step s = .next t ∧ SafeFor k t

/-- What holds of every reachable state: both memories are in canonical form (Machine/Memory.lean), every listed data
address is one the spec gives storage (R12, R44), every listed instruction address is in the instruction memory (R41), and
the return stack is at most as deep as the hardware's (R18). -/
structure Inv (s : State) : Prop where
  data_wf : Cells.wf s.data = true
  prog_wf : Cells.wf s.prog = true
  data_gpr : ∀ e ∈ s.data, ∃ a : DataAddr, e.1 = a.toNat ∧ classOf s.params a = .gpr
  prog_range : ∀ e ∈ s.prog, e.1 < 2048
  stack_depth : s.stack.length ≤ stackDepth s.params.range

end Sys2Proof.Machine
end

