-- ==== Sys2Proof/Certificates/Slice0/Obligations.lean ====
section
/-! DEFINITION. Obligations: the statements for the provers, from the numbered rules of spec/. The helpers stand in the
namespace Sys2Proof.Spec: the rules' tables, and the shapes that instructions of one format share.

A statement over every state says of a low-range state that its STATUS, FSR and data area are as the mid range's rules have
them: the model's choice, since R142 leaves open how they differ (log 20); no word that a low-range core decodes accesses
them (`Obligations.LowRangeWordsAreRefused`). -/

open Sys2Proof Sys2Proof.Machine

namespace Sys2Proof.Spec

/-- The reserved words of R73, range by range. -/
def reservedWord (w : InstrWord) : Prop :=
  (0x0001 ≤ w.toNat ∧ w.toNat ≤ 0x0007) ∨ (0x000A ≤ w.toNat ∧ w.toNat ≤ 0x001F) ∨
  (0x0021 ≤ w.toNat ∧ w.toNat ≤ 0x003F) ∨ (0x0041 ≤ w.toNat ∧ w.toNat ≤ 0x005F) ∨
  (0x0061 ≤ w.toNat ∧ w.toNat ≤ 0x0062) ∨ (0x0065 ≤ w.toNat ∧ w.toNat ≤ 0x007F) ∨
  (0x3B00 ≤ w.toNat ∧ w.toNat ≤ 0x3BFF)

/-- The register an instruction stores to, as its field `f` names it: CLRF and MOVWF always, the bit instructions BCF and
BSF always, format B when `d = 1` (R52, R82). -/
def storedField : Instr → Option DataAddr
  | .addwf f d | .andwf f d | .comf f d | .decf f d | .decfsz f d | .incf f d | .incfsz f d =>
    match d with | .f => some f | .w => none
  | .iorwf f d | .movf f d | .rlf f d | .rrf f d | .subwf f d | .swapf f d | .xorwf f d =>
    match d with | .f => some f | .w => none
  | .bcf f _ | .bsf f _ | .clrf f | .movwf f => some f
  | .btfsc _ _ | .btfss _ _ => none
  | .addlw _ | .andlw _ | .iorlw _ | .movlw _ | .retlw _ | .sublw _ | .xorlw _ => none
  | .call _ | .goto _ => none
  | .clrw | .clrwdt | .nop | .retfie | .ret | .sleep | .option | .tris _ => none

/-- The field `f` of an instruction that has one in the mid range. -/
def fileField : Instr → Option DataAddr
  | .addwf f _ | .andwf f _ | .comf f _ | .decf f _ | .decfsz f _ | .incf f _ | .incfsz f _ => some f
  | .iorwf f _ | .movf f _ | .rlf f _ | .rrf f _ | .subwf f _ | .swapf f _ | .xorwf f _ => some f
  | .bcf f _ | .bsf f _ | .btfsc f _ | .btfss f _ | .clrf f | .movwf f => some f
  | .addlw _ | .andlw _ | .iorlw _ | .movlw _ | .retlw _ | .sublw _ | .xorlw _ => none
  | .call _ | .goto _ => none
  | .clrw | .clrwdt | .nop | .retfie | .ret | .sleep | .option | .tris _ => none

/-- The operand ranges of R76, and TRIS's of R137, as numbers. -/
def inStatedRange : SourceInstr → Prop
  | .addwf f d | .andwf f d | .comf f d | .decf f d | .decfsz f d | .incf f d | .incfsz f d => f ≤ 127 ∧ (d = 0 ∨ d = 1)
  | .iorwf f d | .movf f d | .rlf f d | .rrf f d | .subwf f d | .swapf f d | .xorwf f d => f ≤ 127 ∧ (d = 0 ∨ d = 1)
  | .clrf f | .movwf f => f ≤ 127
  | .bcf f b | .bsf f b | .btfsc f b | .btfss f b => f ≤ 127 ∧ b ≤ 7
  | .addlw k | .andlw k | .iorlw k | .movlw k | .retlw k | .sublw k | .xorlw k => k ≤ 255
  | .call k | .goto k => k ≤ 2047
  | .clrw | .clrwdt | .nop | .retfie | .ret | .sleep | .option => True
  | .tris f => 5 ≤ f ∧ f ≤ 7

/-- The destination is the one the number `d` stands for: 0 is W, 1 is `f` (R62). -/
def namesDest (d : Nat) (x : Dest) : Prop := (d = 0 → x = .w) ∧ (d = 1 → x = .f)

/-- The instruction is the one the source line names, each operand the number written. -/
def names : SourceInstr → Instr → Prop
  | .addwf f d, .addwf g x | .andwf f d, .andwf g x | .comf f d, .comf g x => g.toNat = f ∧ namesDest d x
  | .decf f d, .decf g x | .decfsz f d, .decfsz g x | .incf f d, .incf g x => g.toNat = f ∧ namesDest d x
  | .incfsz f d, .incfsz g x | .iorwf f d, .iorwf g x | .movf f d, .movf g x => g.toNat = f ∧ namesDest d x
  | .rlf f d, .rlf g x | .rrf f d, .rrf g x | .subwf f d, .subwf g x => g.toNat = f ∧ namesDest d x
  | .swapf f d, .swapf g x | .xorwf f d, .xorwf g x => g.toNat = f ∧ namesDest d x
  | .clrf f, .clrf g | .movwf f, .movwf g => g.toNat = f
  | .bcf f b, .bcf g c | .bsf f b, .bsf g c => g.toNat = f ∧ c.toNat = b
  | .btfsc f b, .btfsc g c | .btfss f b, .btfss g c => g.toNat = f ∧ c.toNat = b
  | .addlw k, .addlw l | .andlw k, .andlw l | .iorlw k, .iorlw l | .movlw k, .movlw l => l.toNat = k
  | .retlw k, .retlw l | .sublw k, .sublw l | .xorlw k, .xorlw l => l.toNat = k
  | .call k, .call l | .goto k, .goto l => l.toNat = k
  | .clrw, .clrw | .clrwdt, .clrwdt | .nop, .nop | .retfie, .retfie | .ret, .ret | .sleep, .sleep => True
  | .option, .option => True
  | .tris f, .tris g => g.toNat = f
  | _, _ => False

/-- The data address an instruction stores to in a state: the effective address of that field (R47, R52). -/
def storeTarget (i : Instr) (s : State) : Option DataAddr :=
  match storedField i with
  | none => none
  | some f => (effectiveAddress f s).toOption

/-- The instructions that write W (R10): the literal ones, CLRW, RETLW, and format B when `d = 0`. -/
def writesW : Instr → Bool
  | .addwf _ d | .andwf _ d | .comf _ d | .decf _ d | .decfsz _ d | .incf _ d | .incfsz _ d => decide (d = .w)
  | .iorwf _ d | .movf _ d | .rlf _ d | .rrf _ d | .subwf _ d | .swapf _ d | .xorwf _ d => decide (d = .w)
  | .addlw _ | .andlw _ | .iorlw _ | .movlw _ | .retlw _ | .sublw _ | .xorlw _ | .clrw => true
  | .bcf _ _ | .bsf _ _ | .btfsc _ _ | .btfss _ _ | .clrf _ | .movwf _ => false
  | .call _ | .goto _ | .clrwdt | .nop | .retfie | .ret | .sleep | .option | .tris _ => false

/-- "Written by: ADDLW, ADDWF, SUBLW, SUBWF, RLF, RRF, and nothing else" (R23). -/
def listsC : Instr → Bool
  | .addlw _ | .addwf _ _ | .sublw _ | .subwf _ _ | .rlf _ _ | .rrf _ _ => true
  | _ => false

/-- "Written by: ADDLW, ADDWF, SUBLW, SUBWF, and nothing else" (R24). -/
def listsDC : Instr → Bool
  | .addlw _ | .addwf _ _ | .sublw _ | .subwf _ _ => true
  | _ => false

/-- The instructions that list Z (R22). -/
def listsZ : Instr → Bool
  | .addlw _ | .addwf _ _ | .andlw _ | .andwf _ _ | .clrf _ | .clrw | .comf _ _ | .decf _ _ | .incf _ _ => true
  | .iorlw _ | .iorwf _ _ | .movf _ _ | .sublw _ | .subwf _ _ | .xorlw _ | .xorwf _ _ => true
  | _ => false

/-- The transfers: they assign `pc` a target and always take two cycles (R172). -/
def isTransfer : Instr → Bool
  | .call _ | .goto _ | .retfie | .retlw _ | .ret => true
  | _ => false

/-- The conditional skips (R115). -/
def isSkip : Instr → Bool
  | .btfsc _ _ | .btfss _ _ | .decfsz _ _ | .incfsz _ _ => true
  | _ => false

/-- What the spec says of a format B instruction, in every form (R62, R82, R83, and its own rule): its word is `op`, `d` and
`f`; with `f` resolved to `a` and read as `v` it completes, with the value in W (`d = 0`, `f` unchanged) or stored at `a` (`d = 1`, W unchanged), the flags
assigned after that, and `pc` as given; it is refused where its address, its read or its write is, and where it affects a
flag and would store to STATUS. -/
def FormatB (mk : DataAddr → Dest → Instr) (op : BitVec 6) (affectsFlags : Bool) (value : State → Byte → Byte)
    (flags : State → Byte → State → State) (pcAfter : State → Byte → ProgAddr) : Prop :=
  (∀ (f : DataAddr) (d : Dest), decode (op ++ d.bit ++ f) = .ok (mk f d)) ∧
  (∀ (s t : State) (f a : DataAddr) (v : Byte), effectiveAddress f s = .ok a → memRead a s = .ok (v, t) →
    exec (mk f .w) s = .next { flags s v { t with w := value s v } with pc := pcAfter s v }) ∧
  (∀ (s t u : State) (f a : DataAddr) (v : Byte), effectiveAddress f s = .ok a → memRead a s = .ok (v, t) →
    (affectsFlags = true → a ≠ statusAddr) → memWrite a (value s v) t = .ok u →
    exec (mk f .f) s = .next { flags s v u with pc := pcAfter s v }) ∧
  (∀ (s : State) (f : DataAddr) (d : Dest) (r : Refusal), effectiveAddress f s = .error r →
    exec (mk f d) s = .refused r) ∧
  (∀ (s : State) (f a : DataAddr) (d : Dest) (r : Refusal), effectiveAddress f s = .ok a → memRead a s = .error r →
    exec (mk f d) s = .refused r) ∧
  (affectsFlags = true → ∀ (s : State) (f : DataAddr), effectiveAddress f s = .ok statusAddr →
    exec (mk f .f) s = .refused .statusDestCollision) ∧
  (affectsFlags = false → ∀ (s t : State) (f a : DataAddr) (v : Byte) (r : Refusal), effectiveAddress f s = .ok a →
    memRead a s = .ok (v, t) → memWrite a (value s v) t = .error r → exec (mk f .f) s = .refused r)

/-- The next instruction in sequence (R16). -/
def sequential (s : State) (_ : Byte) : ProgAddr := s.pc + 1

/-- No flag assigned. -/
def noFlags (_ : State) (_ : Byte) (t : State) : State := t

/-- Z alone, for the given value: 1 exactly when it is zero (R22). -/
def zOf (value : State → Byte → Byte) (s : State) (v : Byte) (t : State) : State :=
  { t with z := decide (value s v = 0) }

/-- What the spec says of an instruction that only stores to `f` (R63, R86, R93): the register is not read. -/
def FormatF (mk : DataAddr → Instr) (op : BitVec 7) (affectsFlags : Bool) (value : State → Byte)
    (flags : State → State) : Prop :=
  (∀ f : DataAddr, decode (op ++ f) = .ok (mk f)) ∧
  (∀ (s u : State) (f a : DataAddr), effectiveAddress f s = .ok a → (affectsFlags = true → a ≠ statusAddr) →
    memWrite a (value s) s = .ok u → exec (mk f) s = .next { flags u with pc := s.pc + 1 }) ∧
  (∀ (s : State) (f : DataAddr) (r : Refusal), effectiveAddress f s = .error r → exec (mk f) s = .refused r) ∧
  (∀ (s : State) (f a : DataAddr) (r : Refusal), effectiveAddress f s = .ok a →
    (affectsFlags = true → a ≠ statusAddr) → memWrite a (value s) s = .error r → exec (mk f) s = .refused r) ∧
  (affectsFlags = true → ∀ (s : State) (f : DataAddr), effectiveAddress f s = .ok statusAddr →
    exec (mk f) s = .refused .statusDestCollision)

/-- What the spec says of BCF and BSF (R64, R100): the byte written back has bit `b` as given and the other bits as read. -/
def BitChange (mk : DataAddr → BitNum → Instr) (op : BitVec 4) (x : Bool) : Prop :=
  (∀ (f : DataAddr) (b : BitNum), decode (op ++ b ++ f) = .ok (mk f b)) ∧
  (∀ (s t u : State) (f a : DataAddr) (b : BitNum) (v v' : Byte), effectiveAddress f s = .ok a →
    memRead a s = .ok (v, t) → (∀ j < 8, v'.getLsbD j = if j = b.toNat then x else v.getLsbD j) →
    memWrite a v' t = .ok u → exec (mk f b) s = .next { u with pc := s.pc + 1 }) ∧
  (∀ (s t : State) (f a : DataAddr) (b : BitNum) (v v' : Byte) (r : Refusal), effectiveAddress f s = .ok a →
    memRead a s = .ok (v, t) → (∀ j < 8, v'.getLsbD j = if j = b.toNat then x else v.getLsbD j) →
    memWrite a v' t = .error r → exec (mk f b) s = .refused r) ∧
  (∀ (s : State) (f : DataAddr) (b : BitNum) (r : Refusal), effectiveAddress f s = .error r →
    exec (mk f b) s = .refused r) ∧
  (∀ (s : State) (f a : DataAddr) (b : BitNum) (r : Refusal), effectiveAddress f s = .ok a → memRead a s = .error r →
    exec (mk f b) s = .refused r)

/-- What the spec says of BTFSC and BTFSS (R64, R115 to R117): the register is read, never written; the skip is taken when
the bit is `x`; one cycle, two when it is taken. -/
def BitSkip (mk : DataAddr → BitNum → Instr) (op : BitVec 4) (x : Bool) : Prop :=
  (∀ (f : DataAddr) (b : BitNum), decode (op ++ b ++ f) = .ok (mk f b)) ∧
  (∀ (s t : State) (f : DataAddr) (b : BitNum), t.pc = s.pc + 2 → cycles (mk f b) s t = some 2) ∧
  (∀ (s t : State) (f : DataAddr) (b : BitNum), t.pc = s.pc + 1 → cycles (mk f b) s t = some 1) ∧
  (∀ (s t : State) (f a : DataAddr) (b : BitNum) (v : Byte), effectiveAddress f s = .ok a → memRead a s = .ok (v, t) →
    exec (mk f b) s = .next { t with pc := if v.getLsbD b.toNat = x then s.pc + 2 else s.pc + 1 }) ∧
  (∀ (s : State) (f : DataAddr) (b : BitNum) (r : Refusal), effectiveAddress f s = .error r →
    exec (mk f b) s = .refused r) ∧
  (∀ (s : State) (f a : DataAddr) (b : BitNum) (r : Refusal), effectiveAddress f s = .ok a → memRead a s = .error r →
    exec (mk f b) s = .refused r)

end Sys2Proof.Spec

open Sys2Proof.Spec

/-! ### Encoding -/

/-- Decoding an encoded instruction gives it back, for all 37 instructions with every operand their encodings admit. -/
def Obligations.DecodeOfEncodeIsTheInstruction : Prop :=
  ∀ i : Instr, i.wellFormed = true → decodeFor i.range (encode i) = .ok i

/-- A defined word, its don't-care bits cleared, is the encoding of the instruction it decodes to. -/
def Obligations.EncodeOfDecodeClearsDontCareBits : Prop :=
  ∀ (w : InstrWord) (i : Instr), decode w = .ok i → encode i = w &&& ~~~i.row.dontCare

/-- Each row of the opcode map holds of exactly the words that decode to an instruction of that row (R70), so no two rows
share a word (R72). -/
def Obligations.WordIsOfRowExactlyWhenMaskMatches : Prop :=
  (∀ (r : OpcodeRow) (w : InstrWord), r ∈ opcodeMap → (r.holds w = true ↔ ∃ i, decode w = .ok i ∧ i.row = r)) ∧
  (∀ (r r' : OpcodeRow) (w : InstrWord), r ∈ opcodeMap → r' ∈ opcodeMap → r.holds w = true → r'.holds w = true →
    r = r')

/-- The words without an instruction are R73's ranges, and fetching one is refused by name. -/
def Obligations.ReservedWordsAreRefused : Prop :=
  (∀ w : InstrWord, (decode w = .error (.illegal w) ↔ reservedWord w) ∧ ((∃ i, decode w = .ok i) ↔ ¬reservedWord w)) ∧
  (∀ s : State, launchRefusal s.params = none → s.params.range = .mid → s.run = .running → interruptDue s = false →
    s.pc.toNat < s.params.progWords → reservedWord (progRead s.pc s) →
    step s = .refused (.illegalInstruction (progRead s.pc s)))

/-- The don't-care positions of R69: changing them in a word changes nothing, for it decodes to the same instruction; and
the encoder writes them 0. -/
def Obligations.DontCareBitsDoNotMatter : Prop :=
  (∀ (w m : InstrWord) (i : Instr), decode w = .ok i → decode (w ^^^ (m &&& i.row.dontCare)) = .ok i) ∧
  (∀ i : Instr, i.wellFormed = true → encode i &&& i.row.dontCare = 0) ∧
  (∀ k : Byte, (Instr.addlw k).row.dontCare = 0x0100 ∧ (Instr.sublw k).row.dontCare = 0x0100 ∧
    (Instr.movlw k).row.dontCare = 0x0300 ∧ (Instr.retlw k).row.dontCare = 0x0300) ∧
  Instr.nop.row.dontCare = 0x0060 ∧ Instr.clrw.row.dontCare = 0x007F

/-- Words of the spec's tables and what they stand for. -/
def Obligations.SampleWordsDecode : Prop :=
  decode 0x07FF = .ok (.addwf 0x7F .f) ∧ decode 0x1903 = .ok (.btfsc 0x03 2) ∧ decode 0x2123 = .ok (.call 0x123) ∧
  decode 0x3F17 = .ok (.addlw 0x17) ∧ decode 0x0063 = .ok .sleep ∧ decode 0x0062 = .error (.illegal 0x0062) ∧
  decodeLow 0x002 = .ok .option ∧ decodeLow 0x007 = .ok (.tris 7)

/-- A source line with an operand outside the ranges of R76 is rejected, never truncated (R77); any other line's word
decodes to the instruction the line names, with each operand the number written. -/
def Obligations.AssemblerRejectsOutOfRangeOperands : Prop :=
  ∀ i : SourceInstr, (¬inStatedRange i → i.assemble = none) ∧
    (inStatedRange i → ∃ w j, i.assemble = some w ∧ decodeFor j.range w = .ok j ∧ names i j)

/-! ### Addresses and registers -/

/-- The direct and the indirect mode (R46, R47), with the two refusals of the indirect one, the first tested first, and FSR
unchanged by an access. -/
def Obligations.EffectiveAddressIsDirectOrThroughFsr : Prop :=
  ∀ s : State,
    (∀ f : DataAddr, f ≠ 0x00 → effectiveAddress f s = .ok f) ∧
    (s.fsr.getLsbD 7 = true → effectiveAddress 0x00 s = .error .bankedIndirect) ∧
    (s.fsr.getLsbD 7 = false → s.fsr.setWidth 7 = (0 : DataAddr) →
      effectiveAddress 0x00 s = .error .indirectThroughIndf) ∧
    (s.fsr.getLsbD 7 = false → s.fsr.setWidth 7 ≠ (0 : DataAddr) →
      effectiveAddress 0x00 s = .ok (s.fsr.setWidth 7)) ∧
    (∀ (a : DataAddr) (v : Byte) (t : State), memRead a s = .ok (v, t) → t.fsr = s.fsr)

/-- A read by the address's class (R12, R48), for the parameters R12 allows. A GIEREG read returns some byte whose bit is
GIE; the other bits are free. -/
def Obligations.ReadGivesWhatTheAddressClassSays : Prop :=
  ∀ (s : State) (a : DataAddr), paramsValid s.params = true →
    (s.params.gprLo ≤ a → a ≤ s.params.gprHi → memRead a s = .ok (Cells.read s.data a.toNat, s)) ∧
    (a = 0x04 → memRead a s = .ok (s.fsr, s)) ∧
    (a = 0x03 → memRead a s = .ok (s.statusByte, s)) ∧
    (a = 0x02 → memRead a s = .error .pclAccess) ∧
    (∀ i : BitNum, s.params.gieMap = some ⟨a, i⟩ →
      ∃ v t, memRead a s = .ok (v, t) ∧ v.getLsbD i.toNat = s.gie ∧ t = { s with foreignReads := t.foreignReads }) ∧
    (a ≠ 0x00 → a ≠ 0x02 → a ≠ 0x03 → a ≠ 0x04 → ¬(s.params.gprLo ≤ a ∧ a ≤ s.params.gprHi) →
      (∀ i : BitNum, s.params.gieMap ≠ some ⟨a, i⟩) → memRead a s = .error (.unmodelledAddress a))

/-- A write by the address's class (R12, R49), for the parameters R12 allows. A GIEREG write assigns GIE and hands the
other bits of the byte to the environment. That a low-range state's STATUS and FSR are written alike is the model's choice
(R142, log 20). -/
def Obligations.WriteDoesWhatTheAddressClassSays : Prop :=
  ∀ (s : State) (a : DataAddr) (v : Byte), paramsValid s.params = true →
    (s.params.gprLo ≤ a → a ≤ s.params.gprHi →
      memWrite a v s = .ok { s with data := Cells.write s.data a.toNat v }) ∧
    (a = 0x04 → memWrite a v s = .ok { s with fsr := v }) ∧
    (a = 0x03 → (∀ j, 3 ≤ j → v.getLsbD j = s.statusByte.getLsbD j) →
      memWrite a v s = .ok { s with z := v.getLsbD 2, dc := v.getLsbD 1, c := v.getLsbD 0 }) ∧
    (a = 0x03 → (∃ j, 3 ≤ j ∧ v.getLsbD j ≠ s.statusByte.getLsbD j) → memWrite a v s = .error (.statusWrite v)) ∧
    (a = 0x02 → memWrite a v s = .error .pclAccess) ∧
    (∀ i : BitNum, s.params.gieMap = some ⟨a, i⟩ → ∃ t x, memWrite a v s = .ok t ∧
      t = { s with gie := v.getLsbD i.toNat, foreignWrites := x :: s.foreignWrites } ∧
      ∀ j, j ≠ i.toNat → x.getLsbD j = v.getLsbD j) ∧
    (a ≠ 0x00 → a ≠ 0x02 → a ≠ 0x03 → a ≠ 0x04 → ¬(s.params.gprLo ≤ a ∧ a ≤ s.params.gprHi) →
      (∀ i : BitNum, s.params.gieMap ≠ some ⟨a, i⟩) → memWrite a v s = .error (.unmodelledAddress a))

/-- Reading back what was written at a general-purpose register, FSR or STATUS gives it, and every other general-purpose
register reads as before; on a low-range state by the model's choice (R142, log 20). -/
def Obligations.ReadBackGivesTheLastValueWritten : Prop :=
  ∀ (s t : State) (a : DataAddr) (v : Byte), memWrite a v s = .ok t →
    (classOf s.params a = .gpr ∨ classOf s.params a = .fsr ∨ classOf s.params a = .status →
      memRead a t = .ok (v, t)) ∧
    (∀ b : DataAddr, b ≠ a → classOf s.params b = .gpr →
      memRead b t = .ok (Cells.read s.data b.toNat, t))

/-- Where the flags stand in STATUS (R27). -/
def Obligations.StatusBitsAreTheFlags : Prop :=
  ∀ s : State, memRead 0x03 s = .ok (s.statusByte, s) ∧ s.statusByte.getLsbD 0 = s.c ∧ s.statusByte.getLsbD 1 = s.dc ∧
    s.statusByte.getLsbD 2 = s.z ∧ s.statusByte.getLsbD 3 = s.nPD ∧ s.statusByte.getLsbD 4 = s.nTO ∧
    s.statusByte.getLsbD 5 = false ∧ s.statusByte.getLsbD 6 = false ∧ s.statusByte.getLsbD 7 = false

/-! ### Byte-oriented instructions -/

/-- ADDWF (R84): the carries are those of the exact sum and of the sum of the low nibbles. -/
def Obligations.AddwfAddsWAndTheRegister : Prop :=
  FormatB .addwf 0b000111 true (fun s v => s.w + v)
    (fun s v t => { t with
      c := decide (256 ≤ s.w.toNat + v.toNat), dc := decide (16 ≤ s.w.toNat % 16 + v.toNat % 16),
      z := decide (s.w + v = 0) })
    sequential

/-- SUBWF (R96): `f` minus W; C is 1 when there is no borrow. DC the same for the low nibble: an inference the spec marks as
its own (R81, R24: "[derived: ...]"; N15; log 3). -/
def Obligations.SubwfSubtractsWFromTheRegister : Prop :=
  FormatB .subwf 0b000010 true (fun s v => v - s.w)
    (fun s v t => { t with
      c := decide (s.w.toNat ≤ v.toNat), dc := decide (s.w.toNat % 16 ≤ v.toNat % 16), z := decide (v - s.w = 0) })
    sequential

/-- ANDWF, IORWF, XORWF (R85, R91, R98): Z only. -/
def Obligations.LogicOfWAndTheRegister : Prop :=
  FormatB .andwf 0b000101 true (fun s v => s.w &&& v) (zOf fun s v => s.w &&& v) sequential ∧
  FormatB .iorwf 0b000100 true (fun s v => s.w ||| v) (zOf fun s v => s.w ||| v) sequential ∧
  FormatB .xorwf 0b000110 true (fun s v => s.w ^^^ v) (zOf fun s v => s.w ^^^ v) sequential

/-- COMF, DECF, INCF, MOVF (R88, R89, R90, R92): Z only, the value modulo 256. -/
def Obligations.OneOperandFileInstructions : Prop :=
  FormatB .comf 0b001001 true (fun _ v => ~~~v) (zOf fun _ v => ~~~v) sequential ∧
  FormatB .decf 0b000011 true (fun _ v => v - 1) (zOf fun _ v => v - 1) sequential ∧
  FormatB .incf 0b001010 true (fun _ v => v + 1) (zOf fun _ v => v + 1) sequential ∧
  FormatB .movf 0b001000 true (fun _ v => v) (zOf fun _ v => v) sequential

/-- RLF and RRF (R94, R95): the rotation is nine bits wide, through C, and no other flag is written. -/
def Obligations.RotatesGoThroughCarry : Prop :=
  FormatB .rlf 0b001101 true (fun s v => .ofNat 8 (2 * v.toNat + s.c.toNat))
    (fun _ v t => { t with c := decide (128 ≤ v.toNat) }) sequential ∧
  FormatB .rrf 0b001100 true (fun s v => .ofNat 8 (v.toNat / 2 + 128 * s.c.toNat))
    (fun _ v t => { t with c := decide (v.toNat % 2 = 1) }) sequential

/-- SWAPF (R97): the nibbles exchanged, no flag. -/
def Obligations.SwapfExchangesTheNibbles : Prop :=
  FormatB .swapf 0b001110 false (fun _ v => .ofNat 8 (16 * (v.toNat % 16) + v.toNat / 16)) noFlags sequential

/-- CLRF (R86) and MOVWF (R93): the register is written, not read. -/
def Obligations.ClrfAndMovwfStore : Prop :=
  FormatF .clrf 0b0000011 true (fun _ => 0) (fun t => { t with z := true }) ∧ FormatF .movwf 0b0000001 false (fun s => s.w) (fun t => t)

/-- Every instruction with an `f` operand completes, in every form, where `f` resolves to a general-purpose register or to
FSR, the addresses with plain storage (R44). -/
def Obligations.FileInstructionsCompleteOnPlainStorage : Prop :=
  ∀ (i : Instr) (s : State) (f a : DataAddr), fileField i = some f → effectiveAddress f s = .ok a →
    (classOf s.params a = .gpr ∨ classOf s.params a = .fsr) → ∃ t, exec i s = .next t

/-- CLRW (R87): seven don't-care bits. -/
def Obligations.ClrwClearsWAndSetsZ : Prop :=
  (∀ x : BitVec 7, decode (0b0000010#7 ++ x) = .ok .clrw) ∧
  ∀ s : State, exec .clrw s = .next { s with w := 0, z := true, pc := s.pc + 1 }

/-- RLF followed by RRF on one register with `d = 1` restores it and C, for every general-purpose register. -/
def Obligations.RotateLeftThenRightIsIdentity : Prop :=
  ∀ (s t u : State) (f : DataAddr), f ≠ indfAddr → classOf s.params f = .gpr → exec (.rlf f .f) s = .next t →
    exec (.rrf f .f) t = .next u →
    u.c = s.c ∧ ∀ x, Cells.read u.data x = Cells.read s.data x

/-! ### Bit-oriented instructions -/

/-- BCF and BSF (R101, R102). -/
def Obligations.BitClearAndBitSet : Prop := BitChange .bcf 0b0100 false ∧ BitChange .bsf 0b0101 true

/-- BSF and BCF on STATUS (R100): C, DC and Z can be set and cleared; of bits 3 to 7 a write that changes none goes through
and one that would change a bit is refused with the byte it would have written, for both values of /PD and of /TO. On a low-range state
this is the model's choice (R142, log 20). -/
def Obligations.BitInstructionsOnStatus : Prop :=
  ∀ s : State,
    exec (.bsf 0x03 0) s = .next { s with c := true, pc := s.pc + 1 } ∧
    exec (.bcf 0x03 0) s = .next { s with c := false, pc := s.pc + 1 } ∧
    exec (.bsf 0x03 1) s = .next { s with dc := true, pc := s.pc + 1 } ∧
    exec (.bcf 0x03 1) s = .next { s with dc := false, pc := s.pc + 1 } ∧
    exec (.bsf 0x03 2) s = .next { s with z := true, pc := s.pc + 1 } ∧
    exec (.bcf 0x03 2) s = .next { s with z := false, pc := s.pc + 1 } ∧
    (s.nPD = true → exec (.bsf 0x03 3) s = .next { s with pc := s.pc + 1 } ∧
      exec (.bcf 0x03 3) s = .refused (.statusWrite (s.statusByte &&& 0xF7))) ∧
    (s.nPD = false → exec (.bcf 0x03 3) s = .next { s with pc := s.pc + 1 } ∧
      exec (.bsf 0x03 3) s = .refused (.statusWrite (s.statusByte ||| 0x08))) ∧
    (s.nTO = true → exec (.bsf 0x03 4) s = .next { s with pc := s.pc + 1 } ∧
      exec (.bcf 0x03 4) s = .refused (.statusWrite (s.statusByte &&& 0xEF))) ∧
    (s.nTO = false → exec (.bcf 0x03 4) s = .next { s with pc := s.pc + 1 } ∧
      exec (.bsf 0x03 4) s = .refused (.statusWrite (s.statusByte ||| 0x10))) ∧
    (exec (.bcf 0x03 5) s = .next { s with pc := s.pc + 1 } ∧
      exec (.bsf 0x03 5) s = .refused (.statusWrite (s.statusByte ||| 0x20))) ∧
    (exec (.bcf 0x03 6) s = .next { s with pc := s.pc + 1 } ∧
      exec (.bsf 0x03 6) s = .refused (.statusWrite (s.statusByte ||| 0x40))) ∧
    (exec (.bcf 0x03 7) s = .next { s with pc := s.pc + 1 } ∧
      exec (.bsf 0x03 7) s = .refused (.statusWrite (s.statusByte ||| 0x80)))

/-! ### Literal instructions -/

/-- ADDLW and SUBLW (R105, R109): the carries of the exact sum; no borrow is 1. SUBLW's DC is an inference the spec marks as
its own (R81, R24: "[derived: ...]"; N15; log 3). -/
def Obligations.AddlwAndSublwResults : Prop :=
  ∀ (s : State) (k : Byte) (x : BitVec 1),
    decode (0b11111#5 ++ x ++ k) = .ok (.addlw k) ∧
    exec (.addlw k) s = .next { s with
      w := s.w + k, c := decide (256 ≤ s.w.toNat + k.toNat), dc := decide (16 ≤ s.w.toNat % 16 + k.toNat % 16),
      z := decide (s.w + k = 0), pc := s.pc + 1 } ∧
    decode (0b11110#5 ++ x ++ k) = .ok (.sublw k) ∧
    exec (.sublw k) s = .next { s with
      w := k - s.w, c := decide (s.w.toNat ≤ k.toNat), dc := decide (s.w.toNat % 16 ≤ k.toNat % 16),
      z := decide (k - s.w = 0), pc := s.pc + 1 }

/-- ANDLW, IORLW, XORLW (R106, R107, R110) write Z; MOVLW (R108) writes no flag. -/
def Obligations.LogicAndMoveLiteralResults : Prop :=
  ∀ (s : State) (k : Byte) (x : BitVec 2),
    decode (0b111001#6 ++ k) = .ok (.andlw k) ∧ decode (0b111000#6 ++ k) = .ok (.iorlw k) ∧
    decode (0b111010#6 ++ k) = .ok (.xorlw k) ∧ decode (0b1100#4 ++ x ++ k) = .ok (.movlw k) ∧
    exec (.andlw k) s = .next { s with w := s.w &&& k, z := decide (s.w &&& k = 0), pc := s.pc + 1 } ∧
    exec (.iorlw k) s = .next { s with w := s.w ||| k, z := decide (s.w ||| k = 0), pc := s.pc + 1 } ∧
    exec (.xorlw k) s = .next { s with w := s.w ^^^ k, z := decide (s.w ^^^ k = 0), pc := s.pc + 1 } ∧
    exec (.movlw k) s = .next { s with w := k, pc := s.pc + 1 }

/-! ### Skips, jumps, calls and returns -/

/-- BTFSC and BTFSS (R116, R117). -/
def Obligations.BitTestsSkip : Prop := BitSkip .btfsc 0b0110 false ∧ BitSkip .btfss 0b0111 true

/-- DECFSZ and INCFSZ (R118, R119): the skip is taken exactly when the value sent is zero, and no flag is written; one
cycle, two when the skip is taken. -/
def Obligations.CountAndSkip : Prop :=
  FormatB .decfsz 0b001011 false (fun _ v => v - 1) noFlags (fun s v => if v = 0x01 then s.pc + 2 else s.pc + 1) ∧
  FormatB .incfsz 0b001111 false (fun _ v => v + 1) noFlags (fun s v => if v = 0xFF then s.pc + 2 else s.pc + 1) ∧
  ∀ (s t : State) (f : DataAddr) (d : Dest),
    (t.pc = s.pc + 2 → cycles (.decfsz f d) s t = some 2 ∧ cycles (.incfsz f d) s t = some 2) ∧
    (t.pc = s.pc + 1 → cycles (.decfsz f d) s t = some 1 ∧ cycles (.incfsz f d) s t = some 1)

/-- GOTO (R120) of the mid range: all 11 bits of `pc`, in two cycles. The low range's is in `LowRangeDifferences`. -/
def Obligations.GotoLoadsThePc : Prop :=
  ∀ (s : State) (k : ProgAddr), s.params.range = .mid →
    decode (0b101#3 ++ k) = .ok (.goto k) ∧ exec (.goto k) s = .next { s with pc := k } ∧
    cycles (.goto k) s { s with pc := k } = some 2

/-- CALL (R121, R19) of the mid range: the address after the CALL is pushed, in two cycles; a ninth push is refused. The
low range's is in `LowRangeDifferences`. -/
def Obligations.CallPushesTheNextAddress : Prop :=
  ∀ (s : State) (k : ProgAddr), s.params.range = .mid →
    decode (0b100#3 ++ k) = .ok (.call k) ∧ (∀ t, cycles (.call k) s t = some 2) ∧
    (s.stack.length < 8 → exec (.call k) s = .next { s with stack := (s.pc + 1) :: s.stack, pc := k }) ∧
    (s.stack.length = 8 → exec (.call k) s = .refused .stackOverflow)

/-- RETURN, RETLW and RETFIE (R124, R123, R122, R20): the return address is popped, in two cycles; on the empty stack all
three are refused. After RETFIE a request that holds is due at once. -/
def Obligations.ReturnsPopTheAddress : Prop :=
  (decode 0x0008 = .ok .ret ∧ decode 0x0009 = .ok .retfie ∧
    ∀ (k : Byte) (x : BitVec 2), decode (0b1101#4 ++ x ++ k) = .ok (.retlw k)) ∧
  (∀ (s : State) (a : ProgAddr) (rest : List ProgAddr) (k : Byte), s.stack = a :: rest →
    exec .ret s = .next { s with stack := rest, pc := a } ∧
    exec (.retlw k) s = .next { s with stack := rest, w := k, pc := a } ∧
    exec .retfie s = .next { s with stack := rest, gie := true, pc := a } ∧
    (s.params.range = .mid → s.run = .running → s.irq.now = true →
      interruptDue { s with stack := rest, gie := true, pc := a } = true)) ∧
  (∀ (s : State) (k : Byte), s.stack = [] → exec .ret s = .refused .stackUnderflow ∧
    exec (.retlw k) s = .refused .stackUnderflow ∧ exec .retfie s = .refused .stackUnderflow) ∧
  ∀ (s t : State) (k : Byte), cycles .ret s t = some 2 ∧ cycles (.retlw k) s t = some 2 ∧ cycles .retfie s t = some 2

/-- A CALL followed at its target by RETURN changes nothing but `pc`, which goes on after the CALL. -/
def Obligations.CallThenReturnGoesOnAfterTheCall : Prop :=
  ∀ (s t : State) (k : ProgAddr), exec (.call k) s = .next t → exec .ret t = .next { s with pc := s.pc + 1 }

/-! ### System and low range -/

/-- CLRWDT, NOP and SLEEP (R130, R131, R132). -/
def Obligations.SystemInstructionResults : Prop :=
  (decode 0x0064 = .ok .clrwdt ∧ decode 0x0063 = .ok .sleep ∧
    ∀ x : BitVec 2, decode (0b0000000#7 ++ x ++ 0b00000#5) = .ok .nop) ∧
  (∀ s t : State, cycles .nop s t = some 1) ∧
  ∀ s : State,
    exec .clrwdt s = .next { s with wdt := 0, wdtps := 0, nTO := true, nPD := true, pc := s.pc + 1 } ∧
    exec .nop s = .next { s with pc := s.pc + 1 } ∧
    exec .sleep s =
      .next { s with wdt := 0, wdtps := 0, nTO := true, nPD := false, run := .sleeping, pc := s.pc + 1 }

/-- OPTION and TRIS (R136, R137): W is loaded into the register, W and the flags unchanged; the field values 0 to 4 are not
TRIS. That `pc` advances by one is the model's inference (log 12). -/
def Obligations.OptionAndTrisLoadTheirRegister : Prop :=
  ∀ s : State,
    exec .option s = .next { s with option := s.w, pc := s.pc + 1 } ∧
    exec (.tris 5) s = .next { s with trisa := s.w, pc := s.pc + 1 } ∧
    exec (.tris 6) s = .next { s with trisb := s.w, pc := s.pc + 1 } ∧
    exec (.tris 7) s = .next { s with trisc := s.w, pc := s.pc + 1 } ∧
    (∀ f : BitNum, f.toNat < 5 → exec (.tris f) s = .refused (.trisOperand f))

/-! ### The step: fetch, interrupts, sleep, reset -/

/-- A step of a Running core with no interrupt due runs the instruction the word at `pc` decodes to. The step adds only
that the environment was asked for `IrqRequest` (log 8). -/
def Obligations.StepRunsTheDecodedInstruction : Prop :=
  ∀ (s : State) (i : Instr), launchRefusal s.params = none → s.run = .running → interruptDue s = false →
    s.pc.toNat < s.params.progWords → decodeFor s.params.range (progRead s.pc s) = .ok i →
    step s = exec i s.irqAsked

/-- A word of the opcode table, loaded, is what the next step fetches and runs, from any state whose launch is not
refused (the model's convention, logs 4 and 15). The step adds only that the environment was asked for `IrqRequest`, which
uses up one of its answers (the model's choice, log 8). -/
def Obligations.LoadedWordIsRunByTheNextStep : Prop :=
  ∀ (s : State) (nbits w : Nat) (i : Instr), launchRefusal s.params = none → decodeTableWord nbits w = some i →
    step (s.withFetchWord nbits w) = exec i (s.withFetchWord nbits w).irqAsked

/-- A fetch at or above PROG_WORDS is refused (R17); `pc` counts modulo 2048. -/
def Obligations.FetchBeyondTheProgramIsRefused : Prop :=
  (∀ s : State, launchRefusal s.params = none → s.run = .running → interruptDue s = false →
    s.params.progWords ≤ s.pc.toNat → step s = .refused (.fetchOutOfRange s.pc)) ∧
  (∀ s : State, s.advance.pc.toNat = (s.pc.toNat + 1) % 2048 ∧ (s.skipIf true).pc.toNat = (s.pc.toNat + 2) % 2048)

/-- Interrupt entry (R149): instead of a fetch, when Running, GIE is 1 and `IrqRequest` holds. That the entry is a step of
its own is the model's choice (log 8), and so are the environment's answers as data, of which it uses up one (log 6). -/
def Obligations.InterruptEntryPushesAndDisables : Prop :=
  ∀ s : State, launchRefusal s.params = none → s.params.range = .mid → s.run = .running → s.gie = true →
    s.irq.now = true →
    (s.stack.length < 8 →
      step s = .next { s with stack := s.pc :: s.stack, gie := false, pc := 0x004, irq := s.irq.rest }) ∧
    (s.stack.length = 8 → step s = .refused .stackOverflow)

/-- With GIE 0 or no request no interrupt is taken (R148): whatever the environment asks, the step is the fetch's. That the
environment's answer is used up at such a boundary too, also while GIE is 0, is the model's choice (log 8). -/
def Obligations.NoInterruptWhileDisabled : Prop :=
  ∀ (s t : State), s.run = .running → (s.gie = false ∨ s.irq.now = false) → step s = .next t →
    ∃ i, fetch s = .ok i ∧ exec i s.irqAsked = .next t

/-- RETFIE at the end of a handler that kept the rest of the state undoes the entry (R152). -/
def Obligations.RetfieUndoesInterruptEntry : Prop :=
  ∀ (s t : State) (p : ProgAddr), s.gie = true → takeInterrupt s = .ok t → exec .retfie { t with pc := p } = .next s

/-- While Sleeping nothing executes (R32): a wake-up makes the core Running and changes nothing else of the machine
(R161). That a sleeping core's step is a next state is the model's choice (log 7), and so is that it uses up one of the
environment's answers (logs 6 and 8). -/
def Obligations.SleepingCoreOnlyWakes : Prop :=
  ∀ s : State, launchRefusal s.params = none → s.run = .sleeping →
    (s.wake.now = true → step s = .next { s with run := .running, wake := s.wake.rest }) ∧
    (s.wake.now = false → step s = .next { s with wake := s.wake.rest })

/-- A run that has ended (R174) stays at its final state for any number of steps, but for the environment's answers,
of which one is used up at each step (log 6). That a sleeping core's step is a next state is the model's choice (log 7). -/
def Obligations.EndedRunStaysEnded : Prop :=
  ∀ (k : Nat) (s : State), launchRefusal s.params = none → s.ended →
    ∃ a, Sys2Proof.core.run k s = .next { s with wake := a } ∧ a.isNever

/-- The power-on reset of a mid-range machine (R35, R165): the table's values. That it keeps W, the flags, FSR and the data
as it found them is the model's way of taking the unspecified ones as free inputs (R36; logs 1 and 18); the values that
`State.reset` has for them are the model's (log 1). -/
def Obligations.ResetStateIsTheTable : Prop :=
  ∀ s : State, s.params.range = .mid →
    s.powerOn.pc = 0x000 ∧ s.powerOn.run = .running ∧ s.powerOn.stack = [] ∧ s.powerOn.gie = false ∧
    s.powerOn.nTO = true ∧ s.powerOn.nPD = true ∧ s.powerOn.wdt = 0 ∧ s.powerOn.wdtps = 0 ∧
    s.powerOn.w = s.w ∧ s.powerOn.c = s.c ∧ s.powerOn.dc = s.dc ∧ s.powerOn.z = s.z ∧ s.powerOn.fsr = s.fsr ∧
    s.powerOn.data = s.data ∧ State.reset = State.reset.powerOn

/-- A launch with parameters that R12 forbids, or with the watchdog enabled (R156), makes no step (logs 5 and 9). -/
def Obligations.BadLaunchIsRefused : Prop :=
  ∀ s : State, (paramsValid s.params = false → step s = .refused .launchRejected) ∧
    (paramsValid s.params = true → s.params.wdtEnabled = true → step s = .refused .watchdogEnabled)

/-! ### Invariants and frames -/

/-- The invariant holds after reset. -/
def Obligations.ResetHasTheStateInvariant : Prop := Inv State.reset

/-- Every step keeps the invariant, from every state that has it. -/
def Obligations.EveryStepKeepsTheStateInvariant : Prop := ∀ s t : State, Inv s → step s = .next t → Inv t

/-- No step writes the instruction memory (R42) or the launch's parameters. -/
def Obligations.NoStepWritesTheProgram : Prop :=
  ∀ s t : State, step s = .next t → t.prog = s.prog ∧ t.params = s.params

/-- On a machine without GIE_MAP, GIE becomes 1 only by RETFIE and 0 only by interrupt entry (R29). -/
def Obligations.OnlyRetfieSetsGie : Prop :=
  ∀ s t : State, s.params.gieMap = none → step s = .next t →
    (s.gie = false → t.gie = true → fetch s = .ok .retfie) ∧ (s.gie = true → t.gie = false → interruptDue s = true)

/-- /TO is never cleared, /PD is cleared by SLEEP only, and both change by CLRWDT and SLEEP only (R25, R26); so for the
watchdog and its prescaler (R30). -/
def Obligations.WatchdogBitsChangeOnlyByClrwdtAndSleep : Prop :=
  ∀ s t : State, step s = .next t →
    (t.nTO = s.nTO ∨ t.nTO = true) ∧ (s.nPD = true → t.nPD = false → fetch s = .ok .sleep) ∧
    ((t.nTO ≠ s.nTO ∨ t.nPD ≠ s.nPD ∨ t.wdt ≠ s.wdt ∨ t.wdtps ≠ s.wdtps) →
      (fetch s = .ok .clrwdt ∨ fetch s = .ok .sleep) ∧ t.nTO = true ∧ t.wdt = 0 ∧ t.wdtps = 0)

/-- The core falls asleep by SLEEP only and wakes by a wake-up only (R32). -/
def Obligations.OnlySleepStopsTheCore : Prop :=
  ∀ s t : State, step s = .next t →
    (s.run = .running → t.run = .sleeping → fetch s = .ok .sleep) ∧
    (s.run = .sleeping → t.run = .running → s.wake.now = true)

/-- Every byte of the data area's storage is unchanged but the one the instruction stores to. -/
def Obligations.DataFrameOfEveryInstruction : Prop :=
  ∀ (i : Instr) (s t : State), exec i s = .next t →
    ∀ x : Nat, (∀ a : DataAddr, storeTarget i s = some a → x ≠ a.toNat) → Cells.read t.data x = Cells.read s.data x

/-- Every flag is unchanged but those the instruction lists (R37), and C, DC, Z where STATUS is the register it stores
to. -/
def Obligations.FlagFrameOfEveryInstruction : Prop :=
  ∀ (i : Instr) (s t : State), exec i s = .next t →
    (listsC i = false → storeTarget i s ≠ some 0x03 → t.c = s.c) ∧
    (listsDC i = false → storeTarget i s ≠ some 0x03 → t.dc = s.dc) ∧
    (listsZ i = false → storeTarget i s ≠ some 0x03 → t.z = s.z) ∧
    (i ≠ .clrwdt → i ≠ .sleep → t.nTO = s.nTO ∧ t.nPD = s.nPD)

/-- W is unchanged but by the instructions that write it; FSR but by a store to it; GIE but by RETFIE or a store to
GIEREG; OPTION and TRISA to TRISC but by OPTION and TRIS. That no instruction writes PA2 to PA0 is the model's deduction:
R141 does not say which register holds them (log 13). -/
def Obligations.RegisterFrameOfEveryInstruction : Prop :=
  ∀ (i : Instr) (s t : State), exec i s = .next t →
    (writesW i = false → t.w = s.w) ∧
    (storeTarget i s ≠ some 0x04 → t.fsr = s.fsr) ∧
    (i ≠ .retfie → (∀ a b, storeTarget i s = some a → classOf s.params a ≠ .gieReg b) →
      t.gie = s.gie ∧ t.foreignWrites = s.foreignWrites) ∧
    (i ≠ .option → t.option = s.option) ∧ (i ≠ .tris 5 → t.trisa = s.trisa) ∧ (i ≠ .tris 6 → t.trisb = s.trisb) ∧
    (i ≠ .tris 7 → t.trisc = s.trisc) ∧ t.pa = s.pa

/-- The return stack is unchanged but by CALL and the returns; the watchdog but by CLRWDT and SLEEP; the run state but by
SLEEP; the program, the parameters and the environment's answers always. -/
def Obligations.ControlFrameOfEveryInstruction : Prop :=
  ∀ (i : Instr) (s t : State), exec i s = .next t →
    (isTransfer i = false ∨ (∃ k, i = .goto k) → t.stack = s.stack) ∧
    (i ≠ .clrwdt → i ≠ .sleep → t.wdt = s.wdt ∧ t.wdtps = s.wdtps) ∧ (i ≠ .sleep → t.run = s.run) ∧
    t.prog = s.prog ∧ t.params = s.params ∧ t.irq = s.irq ∧ t.wake = s.wake

/-- Where `pc` goes (R16): to the next instruction, or past it by a skip, unless the instruction is a transfer. For OPTION
and TRIS this is the model's inference (log 12). -/
def Obligations.PcAdvancesUnlessTransfer : Prop :=
  ∀ (i : Instr) (s t : State), exec i s = .next t →
    (isTransfer i = false → isSkip i = false → t.pc = s.pc + 1) ∧
    (isSkip i = true → t.pc = s.pc + 1 ∨ t.pc = s.pc + 2)

/-- The cycle counts (R172): two for an instruction that assigns `pc` anything other than `pc + 1`; one for a non-transfer
that does not. A transfer takes two wherever it goes: for one whose target is `pc + 1` the table of R172 says two and the
sentence under it one, and the model follows the table (log 14). -/
def Obligations.CyclesFollowThePc : Prop :=
  ∀ (i : Instr) (s t : State), i.range = .mid → exec i s = .next t →
    (t.pc ≠ s.pc + 1 → cycles i s t = some 2) ∧ (isTransfer i = true → cycles i s t = some 2) ∧
    (isTransfer i = false → t.pc = s.pc + 1 → cycles i s t = some 1)

/-- A flag-affecting instruction that would store to STATUS is refused before anything else (R83), however STATUS is
addressed. -/
def Obligations.FlagAffectingStoreToStatusIsRefused : Prop :=
  ∀ (i : Instr) (s : State), listsC i = true ∨ listsDC i = true ∨ listsZ i = true →
    storeTarget i s = some statusAddr → exec i s = .refused .statusDestCollision

/-- What the spec gives the low range besides its two instructions: the reset vector is the last address of instruction
memory (R139), no interrupt is ever due and no word is RETFIE (R140), the stack has two levels (R143), and a GOTO or CALL
goes to its 9-bit `k` (R144) under two upper bits from PA2 to PA0 (R141). Which bits those are is a free value, one for each
of the two instructions, and the statement holds for any (log 13). That a third push is refused is R19's rule carried to
that depth, the model's deduction (log 13). -/
def Obligations.LowRangeDifferences : Prop :=
  ∀ s : State, s.params.range = .low → paramsValid s.params = true →
    s.powerOn.pc.toNat = s.params.progWords - 1 ∧ interruptDue s = false ∧ (∀ w, decodeLow w ≠ .ok .retfie) ∧
    (∀ v, s.stack.length < 2 → push v s = .ok { s with stack := v :: s.stack }) ∧
    (∀ v, s.stack.length = 2 → push v s = .error .stackOverflow) ∧
    (∀ k : ProgAddr, k.toNat ≤ 511 →
      (∃ t : ProgAddr, exec (.goto k) s = .next { s with pc := t } ∧
        t.toNat = 512 * (Config.gotoPage s.pa (.ofNat 9 k.toNat)).toNat + k.toNat) ∧
      (s.stack.length < 2 →
        ∃ t : ProgAddr, exec (.call k) s = .next { s with stack := (s.pc + 1) :: s.stack, pc := t } ∧
          t.toNat = 512 * (Config.callPage s.pa (.ofNat 9 k.toNat)).toNat + k.toNat) ∧
      (s.stack.length = 2 → exec (.call k) s = .refused .stackOverflow))

/-- The low range's words (R75): 0x002 is OPTION, 0x005 to 0x007 are TRIS, and every other word is rejected; a low-range core
that fetches one is refused by name (log 12: the spec gives the encodings and no decoder). -/
def Obligations.LowRangeWordsAreRefused : Prop :=
  (∀ w : InstrWord, (decodeLow w = .ok .option ↔ w.toNat = 0x002) ∧
    (∀ f : BitNum, decodeLow w = .ok (.tris f) ↔ 5 ≤ w.toNat ∧ w.toNat ≤ 7 ∧ f.toNat = w.toNat) ∧
    (decodeLow w = .error (.lowRange w) ↔ w.toNat ≠ 0x002 ∧ ¬(0x005 ≤ w.toNat ∧ w.toNat ≤ 0x007))) ∧
  (∀ s : State, launchRefusal s.params = none → s.params.range = .low → s.run = .running →
    s.pc.toNat < s.params.progWords → (progRead s.pc s).toNat ≠ 0x002 →
    ¬(0x005 ≤ (progRead s.pc s).toNat ∧ (progRead s.pc s).toNat ≤ 0x007) →
    step s = .refused (.lowRangeEncoding (progRead s.pc s)))

/-- Every instruction a core's decoder gives is one of that core's: its set has it (R1, R2, R135) and each operand fits the
core's field, in the low range 5 bits for `f`, 9 for the `k` of CALL and GOTO, 3 for `b` and 8 for a literal (R144); in the
mid range every value of an operand fits. That the low range's decoder has OPTION and TRIS only is the model's (log 12). -/
def Obligations.DecodedInstructionsFitTheCore : Prop :=
  (∀ (r : CoreRange) (w : InstrWord) (i : Instr), decodeFor r w = .ok i → i.onCore r = true) ∧
  (∀ (i : Instr) (f : DataAddr), fileField i = some f → (i.onCore .low = true ↔ f.toNat ≤ 31) ∧ i.onCore .mid = true) ∧
  (∀ k : ProgAddr, ((Instr.call k).onCore .low = true ↔ k.toNat ≤ 511) ∧ ((Instr.goto k).onCore .low = true ↔ k.toNat ≤ 511) ∧
    (Instr.call k).onCore .mid = true ∧ (Instr.goto k).onCore .mid = true) ∧
  (∀ (r : CoreRange) (k : Byte), (Instr.andlw k).onCore r = true ∧ (Instr.iorlw k).onCore r = true ∧
    (Instr.movlw k).onCore r = true ∧ (Instr.retlw k).onCore r = true ∧ (Instr.xorlw k).onCore r = true) ∧
  (∀ r : CoreRange, Instr.clrw.onCore r = true ∧ Instr.clrwdt.onCore r = true ∧ Instr.nop.onCore r = true ∧
    Instr.sleep.onCore r = true) ∧
  (∀ (r : CoreRange) (k : Byte), ((Instr.addlw k).onCore r = true ↔ r = .mid) ∧ ((Instr.sublw k).onCore r = true ↔ r = .mid) ∧
    (Instr.retfie.onCore r = true ↔ r = .mid) ∧ (Instr.ret.onCore r = true ↔ r = .mid)) ∧
  (∀ (r : CoreRange) (f : BitNum), (Instr.option.onCore r = true ↔ r = .low) ∧
    ((Instr.tris f).onCore r = true ↔ r = .low ∧ 5 ≤ f.toNat))
end

