-- ==== Sys2Proof/Laws/Decode.lean ====
section
/-! SUPPORT. Decode laws: the decoder's answer as a Bool, so that a claim over all words of a field can be decided; and the
fields of a word put together from its parts (R68). -/

namespace Sys2Proof

/-- `decode w = .ok i`, as a Bool. -/
def decodesTo (w : InstrWord) (i : Instr) : Bool :=
  match decode w with
  | .ok j => decide (j = i)
  | .error _ => false

theorem decodesTo_iff {w : InstrWord} {i : Instr} : decodesTo w i = true ↔ decode w = .ok i := by
  unfold decodesTo
  split <;> simp_all

theorem fieldF_append (a : BitVec 7) (f : DataAddr) : fieldF (a ++ f) = f := by
  unfold fieldF
  exact BitVec.extractLsb'_append_eq_right

theorem fieldK8_append (a : BitVec 6) (k : Byte) : fieldK8 (a ++ k) = k := by
  unfold fieldK8
  exact BitVec.extractLsb'_append_eq_right

theorem fieldK11_append (a : BitVec 3) (k : ProgAddr) : fieldK11 (a ++ k) = k := by
  unfold fieldK11
  exact BitVec.extractLsb'_append_eq_right

end Sys2Proof
end

