-- ==== Sys2Proof/Laws/Memory.lean ====
section
/-! SUPPORT. Laws/Memory: the laws of the sparse memories: read after write, and that writing keeps the canonical form. -/

namespace Sys2Proof.Machine

variable {n : Nat}

@[simp] theorem Cells.read_nil (a : Nat) : Cells.read ([] : Cells n) a = Cells.blank := rfl

theorem Cells.read_cons (b : Nat) (v : BitVec n) (m : Cells n) (a : Nat) :
    Cells.read ((b, v) :: m) a = if a = b then v else Cells.read m a := rfl

theorem Cells.read_erase (m : Cells n) (a x : Nat) :
    Cells.read (Cells.erase m a) x = if x = a then Cells.blank else Cells.read m x := by
  induction m with
  | nil => simp [Cells.erase]
  | cons e m ih =>
    obtain ⟨b, v⟩ := e
    by_cases hab : a = b
    · subst hab
      by_cases hx : x = a
      · subst hx
        simp [Cells.erase, ih]
      · simp [Cells.erase, Cells.read_cons, ih, hx]
    · by_cases hx : x = a
      · subst hx
        simp [Cells.erase, Cells.read_cons, ih, hab]
      · simp [Cells.erase, Cells.read_cons, ih, hab, hx]

theorem Cells.read_insert_same (m : Cells n) (a : Nat) (v : BitVec n) (h : ∀ e ∈ m, e.1 ≠ a) :
    Cells.read (Cells.insert m a v) a = v := by
  induction m with
  | nil => simp [Cells.insert, Cells.read_cons]
  | cons e m ih =>
    obtain ⟨b, u⟩ := e
    have hb : a ≠ b := fun hab => h (b, u) (by simp) hab.symm
    have ih := ih fun e he => h e (by simp [he])
    by_cases hlt : a < b <;> simp [Cells.insert, Cells.read_cons, hlt, hb, ih]

theorem Cells.read_insert_other (m : Cells n) (a x : Nat) (v : BitVec n) (hx : x ≠ a) :
    Cells.read (Cells.insert m a v) x = Cells.read m x := by
  induction m with
  | nil => simp [Cells.insert, Cells.read_cons, hx]
  | cons e m ih =>
    obtain ⟨b, u⟩ := e
    by_cases hlt : a < b <;> simp [Cells.insert, Cells.read_cons, hlt, hx, ih]

theorem Cells.mem_erase {m : Cells n} {a : Nat} {e : Nat × BitVec n} (h : e ∈ Cells.erase m a) : e ∈ m ∧ e.1 ≠ a := by
  induction m with
  | nil => simp [Cells.erase] at h
  | cons x m ih =>
    obtain ⟨b, v⟩ := x
    by_cases hab : a = b
    · simp only [Cells.erase, hab, if_true] at h
      have := ih (by simpa [hab] using h)
      exact ⟨by simp [this.1], this.2⟩
    · simp only [Cells.erase, hab, if_false, List.mem_cons] at h
      rcases h with rfl | h
      · exact ⟨by simp, fun hba => hab hba.symm⟩
      · exact ⟨by simp [(ih h).1], (ih h).2⟩

theorem Cells.mem_insert {m : Cells n} {a : Nat} {v : BitVec n} {e : Nat × BitVec n} (h : e ∈ Cells.insert m a v) :
    e = (a, v) ∨ e ∈ m := by
  induction m with
  | nil => simpa [Cells.insert] using h
  | cons x m ih =>
    obtain ⟨b, u⟩ := x
    by_cases hlt : a < b
    · simpa [Cells.insert, hlt] using h
    · simp only [Cells.insert, hlt, if_false, List.mem_cons] at h
      rcases h with rfl | h
      · simp
      · rcases ih h with rfl | h
        · simp
        · simp [h]

/-- Read after write, at the same address. -/
@[simp] theorem Cells.read_write_same (m : Cells n) (a : Nat) (v : BitVec n) :
    Cells.read (Cells.write m a v) a = v := by
  unfold Cells.write
  split
  · next h => simp [Cells.read_erase, h]
  · exact Cells.read_insert_same _ _ _ fun e he => (Cells.mem_erase he).2

/-- Read after write, at another address. -/
theorem Cells.read_write_other (m : Cells n) (a x : Nat) (v : BitVec n) (hx : x ≠ a) :
    Cells.read (Cells.write m a v) x = Cells.read m x := by
  unfold Cells.write
  split
  · simp [Cells.read_erase, hx]
  · simp [Cells.read_insert_other _ _ _ _ hx, Cells.read_erase, hx]

/-- An entry of a written memory is the one written or an entry from before. -/
theorem Cells.mem_write {m : Cells n} {a : Nat} {v : BitVec n} {e : Nat × BitVec n} (h : e ∈ Cells.write m a v) :
    e = (a, v) ∨ e ∈ m := by
  unfold Cells.write at h
  split at h
  · exact Or.inr (Cells.mem_erase h).1
  · rcases Cells.mem_insert h with h | h
    · exact Or.inl h
    · exact Or.inr (Cells.mem_erase h).1

theorem Cells.wf_cons {a : Nat} {v : BitVec n} {m : Cells n} :
    Cells.wf ((a, v) :: m) = true ↔ v ≠ Cells.blank ∧ (∀ e ∈ m, a < e.1) ∧ Cells.wf m = true := by
  simp [Cells.wf, and_assoc]

theorem Cells.erase_wf {m : Cells n} {a : Nat} (h : Cells.wf m = true) : Cells.wf (Cells.erase m a) = true := by
  induction m with
  | nil => simp [Cells.erase, Cells.wf]
  | cons x m ih =>
    obtain ⟨b, v⟩ := x
    obtain ⟨hv, hlt, hm⟩ := Cells.wf_cons.1 h
    by_cases hab : a = b
    · simpa [Cells.erase, hab] using (by simpa [hab] using ih hm)
    · simp only [Cells.erase, hab, if_false]
      exact Cells.wf_cons.2 ⟨hv, fun e he => hlt e (Cells.mem_erase he).1, ih hm⟩

theorem Cells.insert_wf {m : Cells n} {a : Nat} {v : BitVec n} (h : Cells.wf m = true) (hv : v ≠ Cells.blank)
    (ha : ∀ e ∈ m, e.1 ≠ a) : Cells.wf (Cells.insert m a v) = true := by
  induction m with
  | nil => simpa [Cells.insert, Cells.wf] using hv
  | cons x m ih =>
    obtain ⟨b, u⟩ := x
    obtain ⟨hu, hlt, hm⟩ := Cells.wf_cons.1 h
    have hb : b ≠ a := ha (b, u) (by simp)
    by_cases hab : a < b
    · simp only [Cells.insert, hab, if_true]
      refine Cells.wf_cons.2 ⟨hv, fun e he => ?_, h⟩
      rcases List.mem_cons.1 he with rfl | he
      · exact hab
      · exact Nat.lt_trans hab (hlt e he)
    · simp only [Cells.insert, hab, if_false]
      refine Cells.wf_cons.2 ⟨hu, fun e he => ?_, ih hm fun e he => ha e (by simp [he])⟩
      rcases Cells.mem_insert he with rfl | he
      · exact Nat.lt_of_le_of_ne (Nat.le_of_not_lt hab) hb
      · exact hlt e he

/-- A write keeps the canonical form. -/
theorem Cells.write_wf {m : Cells n} {a : Nat} {v : BitVec n} (h : Cells.wf m = true) :
    Cells.wf (Cells.write m a v) = true := by
  unfold Cells.write
  split
  · exact Cells.erase_wf h
  · next hv => exact Cells.insert_wf (Cells.erase_wf h) hv fun e he => (Cells.mem_erase he).2

/-- The memories of the state after reset are in canonical form. -/
theorem reset_memories_wf : Memory.wf State.reset.data = true ∧ Cells.wf State.reset.prog = true := by decide

end Sys2Proof.Machine
end

