-- ==== Sys2Proof/Laws/State.lean ====
section
/-! SUPPORT. Laws/State: what each named update of the state does to each field, so that no proof unfolds a record update.
All are true by definition. -/

namespace Sys2Proof.Machine

/-! ### advance -/

@[simp] theorem State.advance_w (s : State) : s.advance.w = s.w := rfl
@[simp] theorem State.advance_pc (s : State) : s.advance.pc = s.pc + 1 := rfl
@[simp] theorem State.advance_stack (s : State) : s.advance.stack = s.stack := rfl
@[simp] theorem State.advance_c (s : State) : s.advance.c = s.c := rfl
@[simp] theorem State.advance_dc (s : State) : s.advance.dc = s.dc := rfl
@[simp] theorem State.advance_z (s : State) : s.advance.z = s.z := rfl
@[simp] theorem State.advance_nTO (s : State) : s.advance.nTO = s.nTO := rfl
@[simp] theorem State.advance_nPD (s : State) : s.advance.nPD = s.nPD := rfl
@[simp] theorem State.advance_gie (s : State) : s.advance.gie = s.gie := rfl
@[simp] theorem State.advance_wdt (s : State) : s.advance.wdt = s.wdt := rfl
@[simp] theorem State.advance_wdtps (s : State) : s.advance.wdtps = s.wdtps := rfl
@[simp] theorem State.advance_fsr (s : State) : s.advance.fsr = s.fsr := rfl
@[simp] theorem State.advance_run (s : State) : s.advance.run = s.run := rfl
@[simp] theorem State.advance_data (s : State) : s.advance.data = s.data := rfl
@[simp] theorem State.advance_prog (s : State) : s.advance.prog = s.prog := rfl
@[simp] theorem State.advance_option (s : State) : s.advance.option = s.option := rfl
@[simp] theorem State.advance_trisa (s : State) : s.advance.trisa = s.trisa := rfl
@[simp] theorem State.advance_trisb (s : State) : s.advance.trisb = s.trisb := rfl
@[simp] theorem State.advance_trisc (s : State) : s.advance.trisc = s.trisc := rfl
@[simp] theorem State.advance_pa (s : State) : s.advance.pa = s.pa := rfl
@[simp] theorem State.advance_params (s : State) : s.advance.params = s.params := rfl
@[simp] theorem State.advance_irq (s : State) : s.advance.irq = s.irq := rfl
@[simp] theorem State.advance_wake (s : State) : s.advance.wake = s.wake := rfl
@[simp] theorem State.advance_foreignReads (s : State) : s.advance.foreignReads = s.foreignReads := rfl
@[simp] theorem State.advance_foreignWrites (s : State) : s.advance.foreignWrites = s.foreignWrites := rfl

/-! ### skipIf -/

@[simp] theorem State.skipIf_w (s : State) (b : Bool) : (s.skipIf b).w = s.w := rfl
@[simp] theorem State.skipIf_pc (s : State) (b : Bool) : (s.skipIf b).pc = (if b then s.pc + 2 else s.pc + 1) := rfl
@[simp] theorem State.skipIf_stack (s : State) (b : Bool) : (s.skipIf b).stack = s.stack := rfl
@[simp] theorem State.skipIf_c (s : State) (b : Bool) : (s.skipIf b).c = s.c := rfl
@[simp] theorem State.skipIf_dc (s : State) (b : Bool) : (s.skipIf b).dc = s.dc := rfl
@[simp] theorem State.skipIf_z (s : State) (b : Bool) : (s.skipIf b).z = s.z := rfl
@[simp] theorem State.skipIf_nTO (s : State) (b : Bool) : (s.skipIf b).nTO = s.nTO := rfl
@[simp] theorem State.skipIf_nPD (s : State) (b : Bool) : (s.skipIf b).nPD = s.nPD := rfl
@[simp] theorem State.skipIf_gie (s : State) (b : Bool) : (s.skipIf b).gie = s.gie := rfl
@[simp] theorem State.skipIf_wdt (s : State) (b : Bool) : (s.skipIf b).wdt = s.wdt := rfl
@[simp] theorem State.skipIf_wdtps (s : State) (b : Bool) : (s.skipIf b).wdtps = s.wdtps := rfl
@[simp] theorem State.skipIf_fsr (s : State) (b : Bool) : (s.skipIf b).fsr = s.fsr := rfl
@[simp] theorem State.skipIf_run (s : State) (b : Bool) : (s.skipIf b).run = s.run := rfl
@[simp] theorem State.skipIf_data (s : State) (b : Bool) : (s.skipIf b).data = s.data := rfl
@[simp] theorem State.skipIf_prog (s : State) (b : Bool) : (s.skipIf b).prog = s.prog := rfl
@[simp] theorem State.skipIf_option (s : State) (b : Bool) : (s.skipIf b).option = s.option := rfl
@[simp] theorem State.skipIf_trisa (s : State) (b : Bool) : (s.skipIf b).trisa = s.trisa := rfl
@[simp] theorem State.skipIf_trisb (s : State) (b : Bool) : (s.skipIf b).trisb = s.trisb := rfl
@[simp] theorem State.skipIf_trisc (s : State) (b : Bool) : (s.skipIf b).trisc = s.trisc := rfl
@[simp] theorem State.skipIf_pa (s : State) (b : Bool) : (s.skipIf b).pa = s.pa := rfl
@[simp] theorem State.skipIf_params (s : State) (b : Bool) : (s.skipIf b).params = s.params := rfl
@[simp] theorem State.skipIf_irq (s : State) (b : Bool) : (s.skipIf b).irq = s.irq := rfl
@[simp] theorem State.skipIf_wake (s : State) (b : Bool) : (s.skipIf b).wake = s.wake := rfl
@[simp] theorem State.skipIf_foreignReads (s : State) (b : Bool) : (s.skipIf b).foreignReads = s.foreignReads := rfl
@[simp] theorem State.skipIf_foreignWrites (s : State) (b : Bool) : (s.skipIf b).foreignWrites = s.foreignWrites := rfl

/-! ### withFlags -/

@[simp] theorem State.withFlags_w (s : State) (r : AluResult) : (s.withFlags r).w = s.w := rfl
@[simp] theorem State.withFlags_pc (s : State) (r : AluResult) : (s.withFlags r).pc = s.pc := rfl
@[simp] theorem State.withFlags_stack (s : State) (r : AluResult) : (s.withFlags r).stack = s.stack := rfl
@[simp] theorem State.withFlags_c (s : State) (r : AluResult) : (s.withFlags r).c = r.c.getD s.c := rfl
@[simp] theorem State.withFlags_dc (s : State) (r : AluResult) : (s.withFlags r).dc = r.dc.getD s.dc := rfl
@[simp] theorem State.withFlags_z (s : State) (r : AluResult) : (s.withFlags r).z = r.z.getD s.z := rfl
@[simp] theorem State.withFlags_nTO (s : State) (r : AluResult) : (s.withFlags r).nTO = s.nTO := rfl
@[simp] theorem State.withFlags_nPD (s : State) (r : AluResult) : (s.withFlags r).nPD = s.nPD := rfl
@[simp] theorem State.withFlags_gie (s : State) (r : AluResult) : (s.withFlags r).gie = s.gie := rfl
@[simp] theorem State.withFlags_wdt (s : State) (r : AluResult) : (s.withFlags r).wdt = s.wdt := rfl
@[simp] theorem State.withFlags_wdtps (s : State) (r : AluResult) : (s.withFlags r).wdtps = s.wdtps := rfl
@[simp] theorem State.withFlags_fsr (s : State) (r : AluResult) : (s.withFlags r).fsr = s.fsr := rfl
@[simp] theorem State.withFlags_run (s : State) (r : AluResult) : (s.withFlags r).run = s.run := rfl
@[simp] theorem State.withFlags_data (s : State) (r : AluResult) : (s.withFlags r).data = s.data := rfl
@[simp] theorem State.withFlags_prog (s : State) (r : AluResult) : (s.withFlags r).prog = s.prog := rfl
@[simp] theorem State.withFlags_option (s : State) (r : AluResult) : (s.withFlags r).option = s.option := rfl
@[simp] theorem State.withFlags_trisa (s : State) (r : AluResult) : (s.withFlags r).trisa = s.trisa := rfl
@[simp] theorem State.withFlags_trisb (s : State) (r : AluResult) : (s.withFlags r).trisb = s.trisb := rfl
@[simp] theorem State.withFlags_trisc (s : State) (r : AluResult) : (s.withFlags r).trisc = s.trisc := rfl
@[simp] theorem State.withFlags_pa (s : State) (r : AluResult) : (s.withFlags r).pa = s.pa := rfl
@[simp] theorem State.withFlags_params (s : State) (r : AluResult) : (s.withFlags r).params = s.params := rfl
@[simp] theorem State.withFlags_irq (s : State) (r : AluResult) : (s.withFlags r).irq = s.irq := rfl
@[simp] theorem State.withFlags_wake (s : State) (r : AluResult) : (s.withFlags r).wake = s.wake := rfl
@[simp] theorem State.withFlags_foreignReads (s : State) (r : AluResult) : (s.withFlags r).foreignReads = s.foreignReads := rfl
@[simp] theorem State.withFlags_foreignWrites (s : State) (r : AluResult) : (s.withFlags r).foreignWrites = s.foreignWrites := rfl

/-! ### irqAsked -/

@[simp] theorem State.irqAsked_w (s : State) : s.irqAsked.w = s.w := rfl
@[simp] theorem State.irqAsked_pc (s : State) : s.irqAsked.pc = s.pc := rfl
@[simp] theorem State.irqAsked_stack (s : State) : s.irqAsked.stack = s.stack := rfl
@[simp] theorem State.irqAsked_c (s : State) : s.irqAsked.c = s.c := rfl
@[simp] theorem State.irqAsked_dc (s : State) : s.irqAsked.dc = s.dc := rfl
@[simp] theorem State.irqAsked_z (s : State) : s.irqAsked.z = s.z := rfl
@[simp] theorem State.irqAsked_nTO (s : State) : s.irqAsked.nTO = s.nTO := rfl
@[simp] theorem State.irqAsked_nPD (s : State) : s.irqAsked.nPD = s.nPD := rfl
@[simp] theorem State.irqAsked_gie (s : State) : s.irqAsked.gie = s.gie := rfl
@[simp] theorem State.irqAsked_wdt (s : State) : s.irqAsked.wdt = s.wdt := rfl
@[simp] theorem State.irqAsked_wdtps (s : State) : s.irqAsked.wdtps = s.wdtps := rfl
@[simp] theorem State.irqAsked_fsr (s : State) : s.irqAsked.fsr = s.fsr := rfl
@[simp] theorem State.irqAsked_run (s : State) : s.irqAsked.run = s.run := rfl
@[simp] theorem State.irqAsked_data (s : State) : s.irqAsked.data = s.data := rfl
@[simp] theorem State.irqAsked_prog (s : State) : s.irqAsked.prog = s.prog := rfl
@[simp] theorem State.irqAsked_option (s : State) : s.irqAsked.option = s.option := rfl
@[simp] theorem State.irqAsked_trisa (s : State) : s.irqAsked.trisa = s.trisa := rfl
@[simp] theorem State.irqAsked_trisb (s : State) : s.irqAsked.trisb = s.trisb := rfl
@[simp] theorem State.irqAsked_trisc (s : State) : s.irqAsked.trisc = s.trisc := rfl
@[simp] theorem State.irqAsked_pa (s : State) : s.irqAsked.pa = s.pa := rfl
@[simp] theorem State.irqAsked_params (s : State) : s.irqAsked.params = s.params := rfl
@[simp] theorem State.irqAsked_irq (s : State) : s.irqAsked.irq = s.irq.rest := rfl
@[simp] theorem State.irqAsked_wake (s : State) : s.irqAsked.wake = s.wake := rfl
@[simp] theorem State.irqAsked_foreignReads (s : State) : s.irqAsked.foreignReads = s.foreignReads := rfl
@[simp] theorem State.irqAsked_foreignWrites (s : State) : s.irqAsked.foreignWrites = s.foreignWrites := rfl

/-! ### clearWatchdog -/

@[simp] theorem State.clearWatchdog_w (s : State) (b : Bool) : (s.clearWatchdog b).w = s.w := rfl
@[simp] theorem State.clearWatchdog_pc (s : State) (b : Bool) : (s.clearWatchdog b).pc = s.pc := rfl
@[simp] theorem State.clearWatchdog_stack (s : State) (b : Bool) : (s.clearWatchdog b).stack = s.stack := rfl
@[simp] theorem State.clearWatchdog_c (s : State) (b : Bool) : (s.clearWatchdog b).c = s.c := rfl
@[simp] theorem State.clearWatchdog_dc (s : State) (b : Bool) : (s.clearWatchdog b).dc = s.dc := rfl
@[simp] theorem State.clearWatchdog_z (s : State) (b : Bool) : (s.clearWatchdog b).z = s.z := rfl
@[simp] theorem State.clearWatchdog_nTO (s : State) (b : Bool) : (s.clearWatchdog b).nTO = true := rfl
@[simp] theorem State.clearWatchdog_nPD (s : State) (b : Bool) : (s.clearWatchdog b).nPD = b := rfl
@[simp] theorem State.clearWatchdog_gie (s : State) (b : Bool) : (s.clearWatchdog b).gie = s.gie := rfl
@[simp] theorem State.clearWatchdog_wdt (s : State) (b : Bool) : (s.clearWatchdog b).wdt = 0 := rfl
@[simp] theorem State.clearWatchdog_wdtps (s : State) (b : Bool) : (s.clearWatchdog b).wdtps = 0 := rfl
@[simp] theorem State.clearWatchdog_fsr (s : State) (b : Bool) : (s.clearWatchdog b).fsr = s.fsr := rfl
@[simp] theorem State.clearWatchdog_run (s : State) (b : Bool) : (s.clearWatchdog b).run = s.run := rfl
@[simp] theorem State.clearWatchdog_data (s : State) (b : Bool) : (s.clearWatchdog b).data = s.data := rfl
@[simp] theorem State.clearWatchdog_prog (s : State) (b : Bool) : (s.clearWatchdog b).prog = s.prog := rfl
@[simp] theorem State.clearWatchdog_option (s : State) (b : Bool) : (s.clearWatchdog b).option = s.option := rfl
@[simp] theorem State.clearWatchdog_trisa (s : State) (b : Bool) : (s.clearWatchdog b).trisa = s.trisa := rfl
@[simp] theorem State.clearWatchdog_trisb (s : State) (b : Bool) : (s.clearWatchdog b).trisb = s.trisb := rfl
@[simp] theorem State.clearWatchdog_trisc (s : State) (b : Bool) : (s.clearWatchdog b).trisc = s.trisc := rfl
@[simp] theorem State.clearWatchdog_pa (s : State) (b : Bool) : (s.clearWatchdog b).pa = s.pa := rfl
@[simp] theorem State.clearWatchdog_params (s : State) (b : Bool) : (s.clearWatchdog b).params = s.params := rfl
@[simp] theorem State.clearWatchdog_irq (s : State) (b : Bool) : (s.clearWatchdog b).irq = s.irq := rfl
@[simp] theorem State.clearWatchdog_wake (s : State) (b : Bool) : (s.clearWatchdog b).wake = s.wake := rfl
@[simp] theorem State.clearWatchdog_foreignReads (s : State) (b : Bool) : (s.clearWatchdog b).foreignReads = s.foreignReads := rfl
@[simp] theorem State.clearWatchdog_foreignWrites (s : State) (b : Bool) : (s.clearWatchdog b).foreignWrites = s.foreignWrites := rfl

/-! ### powerOn -/

@[simp] theorem State.powerOn_w (s : State) : s.powerOn.w = s.w := rfl
@[simp] theorem State.powerOn_pc (s : State) : s.powerOn.pc = resetVector s.params := rfl
@[simp] theorem State.powerOn_stack (s : State) : s.powerOn.stack = [] := rfl
@[simp] theorem State.powerOn_c (s : State) : s.powerOn.c = s.c := rfl
@[simp] theorem State.powerOn_dc (s : State) : s.powerOn.dc = s.dc := rfl
@[simp] theorem State.powerOn_z (s : State) : s.powerOn.z = s.z := rfl
@[simp] theorem State.powerOn_nTO (s : State) : s.powerOn.nTO = true := rfl
@[simp] theorem State.powerOn_nPD (s : State) : s.powerOn.nPD = true := rfl
@[simp] theorem State.powerOn_gie (s : State) : s.powerOn.gie = false := rfl
@[simp] theorem State.powerOn_wdt (s : State) : s.powerOn.wdt = 0 := rfl
@[simp] theorem State.powerOn_wdtps (s : State) : s.powerOn.wdtps = 0 := rfl
@[simp] theorem State.powerOn_fsr (s : State) : s.powerOn.fsr = s.fsr := rfl
@[simp] theorem State.powerOn_run (s : State) : s.powerOn.run = .running := rfl
@[simp] theorem State.powerOn_data (s : State) : s.powerOn.data = s.data := rfl
@[simp] theorem State.powerOn_prog (s : State) : s.powerOn.prog = s.prog := rfl
@[simp] theorem State.powerOn_option (s : State) : s.powerOn.option = s.option := rfl
@[simp] theorem State.powerOn_trisa (s : State) : s.powerOn.trisa = s.trisa := rfl
@[simp] theorem State.powerOn_trisb (s : State) : s.powerOn.trisb = s.trisb := rfl
@[simp] theorem State.powerOn_trisc (s : State) : s.powerOn.trisc = s.trisc := rfl
@[simp] theorem State.powerOn_pa (s : State) : s.powerOn.pa = s.pa := rfl
@[simp] theorem State.powerOn_params (s : State) : s.powerOn.params = s.params := rfl
@[simp] theorem State.powerOn_irq (s : State) : s.powerOn.irq = s.irq := rfl
@[simp] theorem State.powerOn_wake (s : State) : s.powerOn.wake = s.wake := rfl
@[simp] theorem State.powerOn_foreignReads (s : State) : s.powerOn.foreignReads = s.foreignReads := rfl
@[simp] theorem State.powerOn_foreignWrites (s : State) : s.powerOn.foreignWrites = s.foreignWrites := rfl

/-! ### sleepBoundary -/

@[simp] theorem sleepBoundary_w (s : State) : (sleepBoundary s).w = s.w := rfl
@[simp] theorem sleepBoundary_pc (s : State) : (sleepBoundary s).pc = s.pc := rfl
@[simp] theorem sleepBoundary_stack (s : State) : (sleepBoundary s).stack = s.stack := rfl
@[simp] theorem sleepBoundary_c (s : State) : (sleepBoundary s).c = s.c := rfl
@[simp] theorem sleepBoundary_dc (s : State) : (sleepBoundary s).dc = s.dc := rfl
@[simp] theorem sleepBoundary_z (s : State) : (sleepBoundary s).z = s.z := rfl
@[simp] theorem sleepBoundary_nTO (s : State) : (sleepBoundary s).nTO = s.nTO := rfl
@[simp] theorem sleepBoundary_nPD (s : State) : (sleepBoundary s).nPD = s.nPD := rfl
@[simp] theorem sleepBoundary_gie (s : State) : (sleepBoundary s).gie = s.gie := rfl
@[simp] theorem sleepBoundary_wdt (s : State) : (sleepBoundary s).wdt = s.wdt := rfl
@[simp] theorem sleepBoundary_wdtps (s : State) : (sleepBoundary s).wdtps = s.wdtps := rfl
@[simp] theorem sleepBoundary_fsr (s : State) : (sleepBoundary s).fsr = s.fsr := rfl
@[simp] theorem sleepBoundary_run (s : State) : (sleepBoundary s).run = (if s.wake.now then .running else .sleeping) := rfl
@[simp] theorem sleepBoundary_data (s : State) : (sleepBoundary s).data = s.data := rfl
@[simp] theorem sleepBoundary_prog (s : State) : (sleepBoundary s).prog = s.prog := rfl
@[simp] theorem sleepBoundary_option (s : State) : (sleepBoundary s).option = s.option := rfl
@[simp] theorem sleepBoundary_trisa (s : State) : (sleepBoundary s).trisa = s.trisa := rfl
@[simp] theorem sleepBoundary_trisb (s : State) : (sleepBoundary s).trisb = s.trisb := rfl
@[simp] theorem sleepBoundary_trisc (s : State) : (sleepBoundary s).trisc = s.trisc := rfl
@[simp] theorem sleepBoundary_pa (s : State) : (sleepBoundary s).pa = s.pa := rfl
@[simp] theorem sleepBoundary_params (s : State) : (sleepBoundary s).params = s.params := rfl
@[simp] theorem sleepBoundary_irq (s : State) : (sleepBoundary s).irq = s.irq := rfl
@[simp] theorem sleepBoundary_wake (s : State) : (sleepBoundary s).wake = s.wake.rest := rfl
@[simp] theorem sleepBoundary_foreignReads (s : State) : (sleepBoundary s).foreignReads = s.foreignReads := rfl
@[simp] theorem sleepBoundary_foreignWrites (s : State) : (sleepBoundary s).foreignWrites = s.foreignWrites := rfl

/-! ### literalStep -/

@[simp] theorem literalStep_w (s : State) (r : AluResult) : (literalStep r s).w = r.value := rfl
@[simp] theorem literalStep_pc (s : State) (r : AluResult) : (literalStep r s).pc = s.pc + 1 := rfl
@[simp] theorem literalStep_stack (s : State) (r : AluResult) : (literalStep r s).stack = s.stack := rfl
@[simp] theorem literalStep_c (s : State) (r : AluResult) : (literalStep r s).c = r.c.getD s.c := rfl
@[simp] theorem literalStep_dc (s : State) (r : AluResult) : (literalStep r s).dc = r.dc.getD s.dc := rfl
@[simp] theorem literalStep_z (s : State) (r : AluResult) : (literalStep r s).z = r.z.getD s.z := rfl
@[simp] theorem literalStep_nTO (s : State) (r : AluResult) : (literalStep r s).nTO = s.nTO := rfl
@[simp] theorem literalStep_nPD (s : State) (r : AluResult) : (literalStep r s).nPD = s.nPD := rfl
@[simp] theorem literalStep_gie (s : State) (r : AluResult) : (literalStep r s).gie = s.gie := rfl
@[simp] theorem literalStep_wdt (s : State) (r : AluResult) : (literalStep r s).wdt = s.wdt := rfl
@[simp] theorem literalStep_wdtps (s : State) (r : AluResult) : (literalStep r s).wdtps = s.wdtps := rfl
@[simp] theorem literalStep_fsr (s : State) (r : AluResult) : (literalStep r s).fsr = s.fsr := rfl
@[simp] theorem literalStep_run (s : State) (r : AluResult) : (literalStep r s).run = s.run := rfl
@[simp] theorem literalStep_data (s : State) (r : AluResult) : (literalStep r s).data = s.data := rfl
@[simp] theorem literalStep_prog (s : State) (r : AluResult) : (literalStep r s).prog = s.prog := rfl
@[simp] theorem literalStep_option (s : State) (r : AluResult) : (literalStep r s).option = s.option := rfl
@[simp] theorem literalStep_trisa (s : State) (r : AluResult) : (literalStep r s).trisa = s.trisa := rfl
@[simp] theorem literalStep_trisb (s : State) (r : AluResult) : (literalStep r s).trisb = s.trisb := rfl
@[simp] theorem literalStep_trisc (s : State) (r : AluResult) : (literalStep r s).trisc = s.trisc := rfl
@[simp] theorem literalStep_pa (s : State) (r : AluResult) : (literalStep r s).pa = s.pa := rfl
@[simp] theorem literalStep_params (s : State) (r : AluResult) : (literalStep r s).params = s.params := rfl
@[simp] theorem literalStep_irq (s : State) (r : AluResult) : (literalStep r s).irq = s.irq := rfl
@[simp] theorem literalStep_wake (s : State) (r : AluResult) : (literalStep r s).wake = s.wake := rfl
@[simp] theorem literalStep_foreignReads (s : State) (r : AluResult) : (literalStep r s).foreignReads = s.foreignReads := rfl
@[simp] theorem literalStep_foreignWrites (s : State) (r : AluResult) : (literalStep r s).foreignWrites = s.foreignWrites := rfl

end Sys2Proof.Machine
end

