-- ==== Sys2Proof/Laws/Ops.lean ====
section
/-! SUPPORT. Laws/Ops: for each shared operation, once, everything it can do when it answers; proofs cite these and do not
unfold the operations. -/

namespace Sys2Proof.Machine

/-! ### Answers and refusals -/

@[simp] theorem settle_ok (t : State) : settle (.ok t) = .next t := rfl

@[simp] theorem settle_error (r : Refusal) : settle (.error r) = .refused r := rfl

@[simp] theorem settle_eq_next {x : Except Refusal State} {t : State} : settle x = .next t ↔ x = .ok t := by
  cases x <;> simp [settle]

@[simp] theorem settle_eq_refused {x : Except Refusal State} {r : Refusal} : settle x = .refused r ↔ x = .error r := by
  cases x <;> simp [settle]

/-- Peel one operation off a sequence that answers. -/
theorem bind_eq_ok {α β : Type} {x : Except Refusal α} {g : α → Except Refusal β} {b : β} :
    (x >>= g) = .ok b ↔ ∃ a, x = .ok a ∧ g a = .ok b := by
  cases x <;> simp [bind, Except.bind]

@[simp] theorem ok_bind {α β : Type} (a : α) (g : α → Except Refusal β) : (Except.ok a >>= g) = g a := rfl

@[simp] theorem error_bind {α β : Type} (r : Refusal) (g : α → Except Refusal β) :
    ((Except.error r : Except Refusal α) >>= g) = .error r := rfl

@[simp] theorem pure_eq_ok {α : Type} (a : α) : (pure a : Except Refusal α) = .ok a := rfl

/-! ### Addresses -/

/-- Where an operand can be: at `f`, or where FSR points (R46, R47). -/
theorem effectiveAddress_ok {f a : DataAddr} {s : State} :
    effectiveAddress f s = .ok a ↔
      (f ≠ indfAddr ∧ a = f) ∨
      (f = indfAddr ∧ s.fsr[7] = false ∧ a = s.fsr.extractLsb' 0 7 ∧ a ≠ 0) := by
  unfold effectiveAddress
  by_cases hf : f = indfAddr
  · by_cases hb : s.fsr[7] = true
    · simp [hf, hb]
    · by_cases hz : s.fsr.extractLsb' 0 7 = 0
      · simp only [hf, hb, hz, if_true, if_false, Bool.false_eq_true, reduceCtorEq, false_iff]
        rintro (⟨h, _⟩ | ⟨_, _, h, h0⟩)
        · exact h rfl
        · exact h0 h
      · simp only [hf, hb, hz, if_true, if_false, Bool.false_eq_true, Except.ok.injEq]
        constructor
        · rintro rfl; exact Or.inr ⟨trivial, trivial, rfl, hz⟩
        · rintro (⟨h, _⟩ | ⟨_, _, h, _⟩)
          · exact absurd rfl h
          · exact h.symm
  · simp only [hf, if_false, Except.ok.injEq, ne_eq, not_false_eq_true, true_and, false_and, or_false]
    exact eq_comm

/-- "`EA` never returns 0x00" (R48). -/
theorem effectiveAddress_ne_indf {f a : DataAddr} {s : State} (h : effectiveAddress f s = .ok a) : a ≠ indfAddr := by
  rcases effectiveAddress_ok.1 h with ⟨hf, rfl⟩ | ⟨_, _, _, h⟩
  · exact hf
  · exact h

/-- The address of a store is the effective address, and not STATUS for an instruction that affects a flag (R83). -/
theorem storeAddress_ok {b : Bool} {f a : DataAddr} {s : State} :
    storeAddress b f s = .ok a ↔ effectiveAddress f s = .ok a ∧ (b = true → a ≠ statusAddr) := by
  unfold storeAddress
  cases h : effectiveAddress f s with
  | error r => simp
  | ok x =>
    by_cases hx : x = statusAddr <;> cases b <;> simp [hx] <;> rintro rfl <;> simp_all

theorem operandAddress_ok {b : Bool} {f a : DataAddr} {d : Dest} {s : State} :
    operandAddress b f d s = .ok a ↔ effectiveAddress f s = .ok a ∧ (b = true → d = .f → a ≠ statusAddr) := by
  cases d <;> simp [operandAddress, storeAddress_ok]

/-! ### Reads and writes -/

/-- Everything a read can do (R48): only the count of free values can change. -/
theorem memRead_ok {a : DataAddr} {v : Byte} {s t : State} (h : memRead a s = .ok (v, t)) :
    (classOf s.params a = .gpr ∧ v = Cells.read s.data a.toNat ∧ t = s) ∨
    (classOf s.params a = .fsr ∧ v = s.fsr ∧ t = s) ∨
    (classOf s.params a = .status ∧ v = s.statusByte ∧ t = s) ∨
    (∃ i, classOf s.params a = .gieReg i ∧ v = putBit i s.gie (Config.foreignByte s.foreignReads) ∧
      t = { s with foreignReads := s.foreignReads + 1 }) := by
  unfold memRead at h
  split at h
  all_goals first
    | (simp only [Except.ok.injEq, Prod.mk.injEq] at h; obtain ⟨rfl, rfl⟩ := h; simp_all)
    | simp at h

/-- What a read leaves: the state, but for the count of free values. -/
theorem memRead_state {a : DataAddr} {v : Byte} {s t : State} (h : memRead a s = .ok (v, t)) :
    ∃ k, t = { s with foreignReads := k } := by
  rcases memRead_ok h with ⟨_, _, rfl⟩ | ⟨_, _, rfl⟩ | ⟨_, _, rfl⟩ | ⟨_, _, _, rfl⟩ <;> exact ⟨_, rfl⟩

theorem writeStatus_ok {v : Byte} {s t : State} :
    writeStatus v s = .ok t ↔
      v.extractLsb' 3 5 = s.statusByte.extractLsb' 3 5 ∧
      t = { s with z := v[2], dc := v[1], c := v[0] } := by
  unfold writeStatus
  split <;> simp_all [eq_comm]

/-- Everything a write can do (R49). -/
theorem memWrite_ok {a : DataAddr} {v : Byte} {s t : State} (h : memWrite a v s = .ok t) :
    (classOf s.params a = .gpr ∧ t = { s with data := Cells.write s.data a.toNat v }) ∨
    (classOf s.params a = .fsr ∧ t = { s with fsr := v }) ∨
    (classOf s.params a = .status ∧ writeStatus v s = .ok t) ∨
    (∃ i, classOf s.params a = .gieReg i ∧
      t = { s with gie := testBit i v, foreignWrites := clearBit i v :: s.foreignWrites }) := by
  unfold memWrite at h
  split at h <;> simp_all

/-- Which addresses are STATUS, FSR and GIEREG (R12). -/
theorem classOf_status {p : Params} {a : DataAddr} : classOf p a = .status ↔ a = statusAddr := by
  unfold classOf
  by_cases h0 : a = indfAddr
  · subst h0; simp [indfAddr, statusAddr]
  · by_cases h2 : a = pclAddr
    · subst h2; simp [indfAddr, pclAddr, statusAddr]
    · by_cases h3 : a = statusAddr
      · simp [h3, statusAddr, indfAddr, pclAddr]
      · by_cases h4 : a = fsrAddr
        · subst h4; simp [indfAddr, pclAddr, statusAddr, fsrAddr]
        · simp only [h0, h2, h3, h4, if_false, iff_false]
          split
          · simp
          · split <;> simp

theorem writeDest_ok {d : Dest} {a : DataAddr} {v : Byte} {s t : State} (h : writeDest d a v s = .ok t) :
    (d = .w ∧ t = { s with w := v }) ∨ (d = .f ∧ memWrite a v s = .ok t) := by
  cases d
  · exact Or.inl ⟨rfl, by simpa [writeDest, eq_comm] using h⟩
  · exact Or.inr ⟨rfl, h⟩

/-! ### Instructions with an `f` operand -/

/-- A format B instruction that answers: the address, the read, the write, and then the flags. -/
theorem fileOp_ok {b : Bool} {op : Byte → AluResult} {f : DataAddr} {d : Dest} {s t : State} {r : Byte} :
    fileOp b op f d s = .ok (r, t) ↔
      ∃ a v s1 s2, operandAddress b f d s = .ok a ∧ memRead a s = .ok (v, s1) ∧
        writeDest d a (op v).value s1 = .ok s2 ∧ r = (op v).value ∧ t = s2.withFlags (op v) := by
  unfold fileOp
  simp only [bind_eq_ok, pure_eq_ok, Except.ok.injEq, Prod.mk.injEq, Prod.exists]
  constructor
  · rintro ⟨a, ha, v, s1, h1, s2, h2, rfl, rfl⟩; exact ⟨a, v, s1, s2, ha, h1, h2, rfl, rfl⟩
  · rintro ⟨a, v, s1, s2, ha, h1, h2, rfl, rfl⟩; exact ⟨a, ha, v, s1, h1, s2, h2, rfl, rfl⟩

theorem fileStep_ok {b : Bool} {op : Byte → AluResult} {f : DataAddr} {d : Dest} {s t : State} :
    fileStep b op f d s = .ok t ↔ ∃ r u, fileOp b op f d s = .ok (r, u) ∧ t = u.advance := by
  unfold fileStep
  simp only [bind_eq_ok, pure_eq_ok, Except.ok.injEq, Prod.exists, eq_comm (a := t)]

theorem fileSkip_ok {op : Byte → Byte} {f : DataAddr} {d : Dest} {s t : State} :
    fileSkip op f d s = .ok t ↔
      ∃ r u, fileOp false (fun v => .plain (op v)) f d s = .ok (r, u) ∧ t = u.skipIf (r == 0) := by
  unfold fileSkip
  simp only [bind_eq_ok, pure_eq_ok, Except.ok.injEq, Prod.exists, eq_comm (a := t)]

theorem fileStore_ok {b : Bool} {r : AluResult} {f : DataAddr} {s t : State} :
    fileStore b r f s = .ok t ↔
      ∃ a u, storeAddress b f s = .ok a ∧ memWrite a r.value s = .ok u ∧ t = (u.withFlags r).advance := by
  unfold fileStore
  simp only [bind_eq_ok, pure_eq_ok, Except.ok.injEq, eq_comm (a := t)]
  constructor
  · rintro ⟨a, ha, u, hu, ht⟩; exact ⟨a, u, ha, hu, ht⟩
  · rintro ⟨a, u, ha, hu, ht⟩; exact ⟨a, ha, u, hu, ht⟩

theorem bitStep_ok {g : Byte → Byte} {f : DataAddr} {s t : State} :
    bitStep g f s = .ok t ↔
      ∃ a v s1 s2, effectiveAddress f s = .ok a ∧ memRead a s = .ok (v, s1) ∧ memWrite a (g v) s1 = .ok s2 ∧
        t = s2.advance := by
  unfold bitStep
  simp only [bind_eq_ok, pure_eq_ok, Except.ok.injEq, Prod.exists, eq_comm (a := t)]
  constructor
  · rintro ⟨a, ha, v, s1, h1, s2, h2, ht⟩; exact ⟨a, v, s1, s2, ha, h1, h2, ht⟩
  · rintro ⟨a, v, s1, s2, ha, h1, h2, ht⟩; exact ⟨a, ha, v, s1, h1, s2, h2, ht⟩

theorem bitSkip_ok {g : Byte → Bool} {f : DataAddr} {s t : State} :
    bitSkip g f s = .ok t ↔
      ∃ a v s1, effectiveAddress f s = .ok a ∧ memRead a s = .ok (v, s1) ∧ t = s1.skipIf (g v) := by
  unfold bitSkip
  simp only [bind_eq_ok, pure_eq_ok, Except.ok.injEq, Prod.exists, eq_comm (a := t)]
  constructor
  · rintro ⟨a, ha, v, s1, h1, ht⟩; exact ⟨a, v, s1, ha, h1, ht⟩
  · rintro ⟨a, v, s1, ha, h1, ht⟩; exact ⟨a, ha, v, s1, h1, ht⟩

/-! ### The environment's answers -/

@[simp] theorem Answers.answer_zero (a : Answers) : a.answer 0 = a.now := rfl

@[simp] theorem Answers.answer_succ (a : Answers) (n : Nat) : a.answer (n + 1) = a.rest.answer n := rfl

@[simp] theorem Answers.declineNow_now (a : Answers) : a.declineNow.now = false := rfl

@[simp] theorem Answers.declineNow_rest (a : Answers) : a.declineNow.rest = a.rest := rfl

@[simp] theorem Answers.never_rest : Answers.never.rest = .never := rfl

theorem Answers.never_isNever : Answers.never.isNever := fun n => by
  induction n with
  | zero => rfl
  | succ n ih => exact ih

theorem Answers.isNever_now {a : Answers} (h : a.isNever) : a.now = false := h 0

theorem Answers.isNever_rest {a : Answers} (h : a.isNever) : a.rest.isNever := fun n => h (n + 1)

/-- The answers of a free source are the opaque sequence itself, of which nothing is known. -/
theorem Answers.answer_free (i m n : Nat) :
    ({ upcoming := [], thereafter := .free i m } : Answers).answer n = Config.environmentAnswer i (m + n) := by
  induction n generalizing m with
  | zero => rfl
  | succ n ih => exact (ih (m + 1)).trans (by rw [Nat.add_right_comm, Nat.add_assoc])

/-- After the list come the answers given for ever. -/
theorem Answers.answer_append (bs : List Bool) (t : Thereafter) (n : Nat) :
    ({ upcoming := bs, thereafter := t } : Answers).answer (bs.length + n) =
      ({ upcoming := [], thereafter := t } : Answers).answer n := by
  induction bs with
  | nil => simp
  | cons b bs ih => rw [List.length_cons, Nat.add_right_comm]; exact ih

/-! ### Jump targets -/

@[simp] theorem jumpTarget_mid {page : BitVec 3 → BitVec 9 → BitVec 2} {k : ProgAddr} {s : State}
    (h : s.params.range = .mid) : jumpTarget page k s = k := by simp [jumpTarget, h]

/-- In the low range the target is `k` within a page that PA2 to PA0 select. -/
theorem jumpTarget_low {page : BitVec 3 → BitVec 9 → BitVec 2} {k : ProgAddr} {s : State} (h : s.params.range = .low) :
    (jumpTarget page k s).toNat = 512 * (page s.pa (k.setWidth 9)).toNat + k.toNat % 512 := by
  simp only [jumpTarget, h, BitVec.toNat_append, BitVec.toNat_setWidth]
  rw [← Nat.shiftLeft_add_eq_or_of_lt (Nat.mod_lt _ (by decide)), Nat.shiftLeft_eq]
  omega

/-! ### The return stack and interrupts -/

theorem push_ok {v : ProgAddr} {s t : State} :
    push v s = .ok t ↔ s.stack.length < stackDepth s.params.range ∧ t = { s with stack := v :: s.stack } := by
  unfold push
  split
  · next h => simp only [h, Except.ok.injEq, true_and]; exact eq_comm
  · next h => simp only [h, reduceCtorEq, false_and]

theorem pop_ok {s u : State} {t : ProgAddr} :
    pop s = .ok (t, u) ↔ ∃ rest, s.stack = t :: rest ∧ u = { s with stack := rest } := by
  unfold pop
  split
  · next h => simp [h]
  · next h =>
    simp only [h, Except.ok.injEq, Prod.mk.injEq, List.cons.injEq]
    constructor
    · rintro ⟨rfl, rfl⟩; exact ⟨_, ⟨rfl, rfl⟩, rfl⟩
    · rintro ⟨_, ⟨rfl, rfl⟩, rfl⟩; exact ⟨rfl, rfl⟩

theorem takeInterrupt_ok {s t : State} :
    takeInterrupt s = .ok t ↔
      s.stack.length < stackDepth s.params.range ∧
      t = { s with stack := s.pc :: s.stack, gie := false, pc := intVector } := by
  unfold takeInterrupt
  cases h : push s.pc s with
  | ok u =>
    obtain ⟨hl, rfl⟩ := push_ok.1 h
    simp only [hl, Except.ok.injEq, true_and]
    exact eq_comm
  | error r =>
    simp only [reduceCtorEq, false_iff, not_and]
    intro hl
    rw [push_ok.2 ⟨hl, rfl⟩] at h
    simp at h

theorem returnFromInterrupt_ok {s t : State} :
    returnFromInterrupt s = .ok t ↔
      ∃ a rest, s.stack = a :: rest ∧ t = { s with stack := rest, gie := true, pc := a } := by
  unfold returnFromInterrupt pop
  cases h : s.stack with
  | nil => simp
  | cons a rest =>
    simp only [Except.ok.injEq, List.cons.injEq]
    constructor
    · rintro rfl; exact ⟨_, _, ⟨rfl, rfl⟩, rfl⟩
    · rintro ⟨_, _, ⟨rfl, rfl⟩, rfl⟩; rfl

/-! ### Fetch and step -/

theorem fetch_ok {s : State} {i : Instr} :
    fetch s = .ok i ↔ s.pc.toNat < s.params.progWords ∧ decodeFor s.params.range (progRead s.pc s) = .ok i := by
  unfold fetch
  split
  · next h => split <;> simp_all
  · next h => simp only [h, reduceCtorEq, false_and]

/-- Everything a step that answers can be (R149, R161): a boundary while Sleeping, an interrupt entry, or the fetched
instruction. -/
theorem step_next {s t : State} (h : step s = .next t) :
    launchRefusal s.params = none ∧
    ((s.run = .sleeping ∧ t = sleepBoundary s) ∨
     (s.run = .running ∧ interruptDue s = true ∧ takeInterrupt s.irqAsked = .ok t) ∨
     (s.run = .running ∧ interruptDue s = false ∧ ∃ i, fetch s = .ok i ∧ exec i s.irqAsked = .next t)) := by
  unfold step at h
  split at h
  · simp at h
  · next hl =>
    refine ⟨hl, ?_⟩
    split at h
    · next hr => simp only [Host.Outcome.next.injEq] at h; exact Or.inl ⟨hr, h.symm⟩
    · next hr =>
      unfold runBoundary at h
      by_cases hi : interruptDue s = true
      · simp only [hi, if_true, settle_eq_next] at h
        exact Or.inr (Or.inl ⟨hr, hi, h⟩)
      · simp only [Bool.not_eq_true] at hi
        simp only [hi, Bool.false_eq_true, if_false] at h
        split at h
        · next i hf => exact Or.inr (Or.inr ⟨hr, hi, i, hf, h⟩)
        · simp at h

end Sys2Proof.Machine
end

