-- ==== Sys2Proof/Laws/Frames.lean ====
section
/-! SUPPORT. Laws/Frames: what the shared operations leave unchanged, once for each. -/

namespace Sys2Proof.Machine

/-- The class of a general-purpose register, FSR or GIEREG decides the address's other classes. -/
theorem classOf_fsr {p : Params} {a : DataAddr} : classOf p a = .fsr ↔ a = fsrAddr := by
  unfold classOf
  by_cases h0 : a = indfAddr
  · subst h0; simp [indfAddr, fsrAddr]
  · by_cases h2 : a = pclAddr
    · subst h2; simp [indfAddr, pclAddr, fsrAddr]
    · by_cases h3 : a = statusAddr
      · subst h3; simp [indfAddr, pclAddr, statusAddr, fsrAddr]
      · by_cases h4 : a = fsrAddr
        · subst h4; simp [indfAddr, pclAddr, statusAddr, fsrAddr]
        · simp only [h0, h2, h3, h4, if_false, iff_false]
          split
          · simp
          · split <;> simp

/-- What a write can leave: the state with other contents of its one target, and everything else as it was. -/
structure WriteFrame (a : DataAddr) (s t : State) : Prop where
  eq : ∃ data fsr z dc c gie fw,
    t = { s with data := data, fsr := fsr, z := z, dc := dc, c := c, gie := gie, foreignWrites := fw }
  data : ∀ x, x ≠ a.toNat → Cells.read t.data x = Cells.read s.data x
  data_wf : Cells.wf s.data = true → Cells.wf t.data = true
  data_mem : ∀ e ∈ t.data, e ∈ s.data ∨ (e.1 = a.toNat ∧ classOf s.params a = .gpr)
  fsr : a ≠ fsrAddr → t.fsr = s.fsr
  flags : a ≠ statusAddr → t.z = s.z ∧ t.dc = s.dc ∧ t.c = s.c
  gie : (∀ b, classOf s.params a ≠ .gieReg b) → t.gie = s.gie ∧ t.foreignWrites = s.foreignWrites

theorem memWrite_frame {a : DataAddr} {v : Byte} {s t : State} (h : memWrite a v s = .ok t) : WriteFrame a s t := by
  rcases memWrite_ok h with ⟨hc, rfl⟩ | ⟨hc, rfl⟩ | ⟨hc, h⟩ | ⟨i, hc, rfl⟩
  · exact
      { eq := ⟨_, _, _, _, _, _, _, rfl⟩
        data := fun x hx => Cells.read_write_other _ _ _ _ hx
        data_wf := fun hw => Cells.write_wf hw
        data_mem := fun e he => by
          rcases Cells.mem_write he with rfl | he
          · exact Or.inr ⟨rfl, hc⟩
          · exact Or.inl he
        fsr := fun _ => rfl
        flags := fun _ => ⟨rfl, rfl, rfl⟩
        gie := fun _ => ⟨rfl, rfl⟩ }
  · exact
      { eq := ⟨_, _, _, _, _, _, _, rfl⟩
        data := fun _ _ => rfl
        data_wf := fun hw => hw
        data_mem := fun _ he => Or.inl he
        fsr := fun ha => absurd (classOf_fsr.1 hc) ha
        flags := fun _ => ⟨rfl, rfl, rfl⟩
        gie := fun _ => ⟨rfl, rfl⟩ }
  · obtain ⟨_, rfl⟩ := writeStatus_ok.1 h
    exact
      { eq := ⟨_, _, _, _, _, _, _, rfl⟩
        data := fun _ _ => rfl
        data_wf := fun hw => hw
        data_mem := fun _ he => Or.inl he
        fsr := fun _ => rfl
        flags := fun ha => absurd (classOf_status.1 hc) ha
        gie := fun _ => ⟨rfl, rfl⟩ }
  · exact
      { eq := ⟨_, _, _, _, _, _, _, rfl⟩
        data := fun _ _ => rfl
        data_wf := fun hw => hw
        data_mem := fun _ he => Or.inl he
        fsr := fun _ => rfl
        flags := fun _ => ⟨rfl, rfl, rfl⟩
        gie := fun hg => absurd hc (hg i) }

end Sys2Proof.Machine
end

