-- ==== Sys2Proof/Laws/PerInstr.lean ====
section
/-! SUPPORT. PerInstr: the per-instruction family `EncodesItsRow`: the word the encoder writes is one of the
instruction's row of R70, with every don't-care bit 0 (R69). -/

namespace Sys2Proof.Laws

/-- The encoding of the instruction, if it has one, matches its row and has no don't-care bit set. -/
def EncodesItsRow.Statement (i : Instr) : Prop :=
  i.wellFormed = true → encode i &&& i.row.mask = i.row.bits ∧ encode i &&& i.row.dontCare = 0

/-- A mask over the opcode field of a word does not see the operand field below it. -/
theorem mask_high {n m : Nat} (a x : BitVec n) (b : BitVec m) : (a ++ b) &&& (x ++ 0#m) = (a &&& x) ++ 0#m := by
  rw [BitVec.and_append, BitVec.and_zero]

/-- Nor two operand fields below it. -/
theorem mask_high_two {n m k : Nat} (a x : BitVec n) (b : BitVec m) (c : BitVec k) :
    ((a ++ b) ++ c) &&& ((x ++ 0#m) ++ 0#k) = ((a &&& x) ++ 0#m) ++ 0#k := by
  rw [mask_high, mask_high]

theorem EncodesItsRow.addlw (k : Byte) : EncodesItsRow.Statement (.addlw k) := fun _ =>
  ⟨mask_high 0b111110#6 0b111110#6 k, mask_high 0b111110#6 0b000001#6 k⟩

theorem EncodesItsRow.addwf (f : DataAddr) (d : Dest) : EncodesItsRow.Statement (.addwf f d) := fun _ =>
  ⟨mask_high_two 0b000111#6 0b111111#6 d.bit f, BitVec.and_zero⟩

theorem EncodesItsRow.andlw (k : Byte) : EncodesItsRow.Statement (.andlw k) := fun _ =>
  ⟨mask_high 0b111001#6 0b111111#6 k, BitVec.and_zero⟩

theorem EncodesItsRow.andwf (f : DataAddr) (d : Dest) : EncodesItsRow.Statement (.andwf f d) := fun _ =>
  ⟨mask_high_two 0b000101#6 0b111111#6 d.bit f, BitVec.and_zero⟩

theorem EncodesItsRow.bcf (f : DataAddr) (b : BitNum) : EncodesItsRow.Statement (.bcf f b) := fun _ =>
  ⟨mask_high_two 0b0100#4 0b1111#4 b f, BitVec.and_zero⟩

theorem EncodesItsRow.bsf (f : DataAddr) (b : BitNum) : EncodesItsRow.Statement (.bsf f b) := fun _ =>
  ⟨mask_high_two 0b0101#4 0b1111#4 b f, BitVec.and_zero⟩

theorem EncodesItsRow.btfsc (f : DataAddr) (b : BitNum) : EncodesItsRow.Statement (.btfsc f b) := fun _ =>
  ⟨mask_high_two 0b0110#4 0b1111#4 b f, BitVec.and_zero⟩

theorem EncodesItsRow.btfss (f : DataAddr) (b : BitNum) : EncodesItsRow.Statement (.btfss f b) := fun _ =>
  ⟨mask_high_two 0b0111#4 0b1111#4 b f, BitVec.and_zero⟩

theorem EncodesItsRow.call (k : ProgAddr) : EncodesItsRow.Statement (.call k) := fun _ =>
  ⟨mask_high 0b100#3 0b111#3 k, BitVec.and_zero⟩

theorem EncodesItsRow.clrf (f : DataAddr) : EncodesItsRow.Statement (.clrf f) := fun _ =>
  ⟨mask_high 0b0000011#7 0b1111111#7 f, BitVec.and_zero⟩

theorem EncodesItsRow.clrw : EncodesItsRow.Statement .clrw := fun _ => by decide

theorem EncodesItsRow.clrwdt : EncodesItsRow.Statement .clrwdt := fun _ => by decide

theorem EncodesItsRow.comf (f : DataAddr) (d : Dest) : EncodesItsRow.Statement (.comf f d) := fun _ =>
  ⟨mask_high_two 0b001001#6 0b111111#6 d.bit f, BitVec.and_zero⟩

theorem EncodesItsRow.decf (f : DataAddr) (d : Dest) : EncodesItsRow.Statement (.decf f d) := fun _ =>
  ⟨mask_high_two 0b000011#6 0b111111#6 d.bit f, BitVec.and_zero⟩

theorem EncodesItsRow.decfsz (f : DataAddr) (d : Dest) : EncodesItsRow.Statement (.decfsz f d) := fun _ =>
  ⟨mask_high_two 0b001011#6 0b111111#6 d.bit f, BitVec.and_zero⟩

theorem EncodesItsRow.goto (k : ProgAddr) : EncodesItsRow.Statement (.goto k) := fun _ =>
  ⟨mask_high 0b101#3 0b111#3 k, BitVec.and_zero⟩

theorem EncodesItsRow.incf (f : DataAddr) (d : Dest) : EncodesItsRow.Statement (.incf f d) := fun _ =>
  ⟨mask_high_two 0b001010#6 0b111111#6 d.bit f, BitVec.and_zero⟩

theorem EncodesItsRow.incfsz (f : DataAddr) (d : Dest) : EncodesItsRow.Statement (.incfsz f d) := fun _ =>
  ⟨mask_high_two 0b001111#6 0b111111#6 d.bit f, BitVec.and_zero⟩

theorem EncodesItsRow.iorlw (k : Byte) : EncodesItsRow.Statement (.iorlw k) := fun _ =>
  ⟨mask_high 0b111000#6 0b111111#6 k, BitVec.and_zero⟩

theorem EncodesItsRow.iorwf (f : DataAddr) (d : Dest) : EncodesItsRow.Statement (.iorwf f d) := fun _ =>
  ⟨mask_high_two 0b000100#6 0b111111#6 d.bit f, BitVec.and_zero⟩

theorem EncodesItsRow.movlw (k : Byte) : EncodesItsRow.Statement (.movlw k) := fun _ =>
  ⟨mask_high 0b110000#6 0b111100#6 k, mask_high 0b110000#6 0b000011#6 k⟩

theorem EncodesItsRow.movf (f : DataAddr) (d : Dest) : EncodesItsRow.Statement (.movf f d) := fun _ =>
  ⟨mask_high_two 0b001000#6 0b111111#6 d.bit f, BitVec.and_zero⟩

theorem EncodesItsRow.movwf (f : DataAddr) : EncodesItsRow.Statement (.movwf f) := fun _ =>
  ⟨mask_high 0b0000001#7 0b1111111#7 f, BitVec.and_zero⟩

theorem EncodesItsRow.nop : EncodesItsRow.Statement .nop := fun _ => by decide

theorem EncodesItsRow.retfie : EncodesItsRow.Statement .retfie := fun _ => by decide

theorem EncodesItsRow.retlw (k : Byte) : EncodesItsRow.Statement (.retlw k) := fun _ =>
  ⟨mask_high 0b110100#6 0b111100#6 k, mask_high 0b110100#6 0b000011#6 k⟩

theorem EncodesItsRow.ret : EncodesItsRow.Statement .ret := fun _ => by decide

theorem EncodesItsRow.rlf (f : DataAddr) (d : Dest) : EncodesItsRow.Statement (.rlf f d) := fun _ =>
  ⟨mask_high_two 0b001101#6 0b111111#6 d.bit f, BitVec.and_zero⟩

theorem EncodesItsRow.rrf (f : DataAddr) (d : Dest) : EncodesItsRow.Statement (.rrf f d) := fun _ =>
  ⟨mask_high_two 0b001100#6 0b111111#6 d.bit f, BitVec.and_zero⟩

theorem EncodesItsRow.sleep : EncodesItsRow.Statement .sleep := fun _ => by decide

theorem EncodesItsRow.sublw (k : Byte) : EncodesItsRow.Statement (.sublw k) := fun _ =>
  ⟨mask_high 0b111100#6 0b111110#6 k, mask_high 0b111100#6 0b000001#6 k⟩

theorem EncodesItsRow.subwf (f : DataAddr) (d : Dest) : EncodesItsRow.Statement (.subwf f d) := fun _ =>
  ⟨mask_high_two 0b000010#6 0b111111#6 d.bit f, BitVec.and_zero⟩

theorem EncodesItsRow.swapf (f : DataAddr) (d : Dest) : EncodesItsRow.Statement (.swapf f d) := fun _ =>
  ⟨mask_high_two 0b001110#6 0b111111#6 d.bit f, BitVec.and_zero⟩

theorem EncodesItsRow.xorlw (k : Byte) : EncodesItsRow.Statement (.xorlw k) := fun _ =>
  ⟨mask_high 0b111010#6 0b111111#6 k, BitVec.and_zero⟩

theorem EncodesItsRow.xorwf (f : DataAddr) (d : Dest) : EncodesItsRow.Statement (.xorwf f d) := fun _ =>
  ⟨mask_high_two 0b000110#6 0b111111#6 d.bit f, BitVec.and_zero⟩

theorem EncodesItsRow.option : EncodesItsRow.Statement .option := fun _ => by decide

theorem EncodesItsRow.tris (f : BitNum) : EncodesItsRow.Statement (.tris f) := by
  revert f; unfold EncodesItsRow.Statement; decide

end Sys2Proof.Laws
end

