-- ==== Sys2Proof/Tests/Slice0.lean ====
section
/-! SUPPORT. Tests: small tests, each of one step at most, with expected results from the spec's own vectors
(spec/95_test_vectors.md, its entries S1 to S37 and tables 2.1 to 2.14); and the witnesses of the statements'
hypotheses. -/

open Sys2Proof Sys2Proof.Machine Sys2Proof.Spec

namespace Sys2Proof.Tests

/-! ### WellFormed (R76, R77, R137) -/

theorem test_tris_fields_below_five_are_ill_formed :
    (Instr.tris 0).wellFormed = false ∧ (Instr.tris 4).wellFormed = false ∧ (Instr.tris 5).wellFormed = true := by decide

/-- R144: the low range's `f` has 5 bits and its jump `k` 9; R2: the instructions each range lacks. -/
theorem test_operands_of_a_low_range_core :
    (Instr.incf 0x20 .f).onCore .low = false ∧ (Instr.incf 0x1F .f).onCore .low = true ∧
      (Instr.bcf 0x20 7).onCore .low = false ∧ (Instr.bcf 0x1F 7).onCore .low = true ∧
      (Instr.goto 0x200).onCore .low = false ∧ (Instr.goto 0x1FF).onCore .low = true ∧
      (Instr.goto 0x7FF).onCore .mid = true ∧ (Instr.movlw 0xFF).onCore .low = true ∧
      (Instr.addlw 0x00).onCore .low = false ∧ (Instr.option).onCore .mid = false := by decide

theorem test_source_literal_above_255_is_out_of_range :
    (SourceInstr.addlw 256).inRange = false ∧ (SourceInstr.retlw 256).inRange = false ∧
      (SourceInstr.movlw 255).inRange = true := by decide

theorem test_source_register_above_127_is_out_of_range :
    (SourceInstr.addwf 128 0).inRange = false ∧ (SourceInstr.movf 128 1).inRange = false ∧
      (SourceInstr.clrf 128).inRange = false ∧ (SourceInstr.bcf 128 0).inRange = false ∧
      (SourceInstr.movwf 127).inRange = true := by decide

theorem test_source_destination_above_one_is_out_of_range :
    (SourceInstr.incf 32 2).inRange = false ∧ (SourceInstr.swapf 32 2).inRange = false ∧
      (SourceInstr.rlf 127 1).inRange = true := by decide

theorem test_source_bit_above_seven_is_out_of_range :
    (SourceInstr.btfss 32 8).inRange = false ∧ (SourceInstr.btfss 127 7).inRange = true := by decide

theorem test_source_target_above_2047_is_out_of_range :
    (SourceInstr.call 2048).inRange = false ∧ (SourceInstr.goto 2047).inRange = true := by decide

theorem test_source_tris_outside_five_to_seven_is_out_of_range :
    (SourceInstr.tris 4).inRange = false ∧ (SourceInstr.tris 8).inRange = false ∧
      (SourceInstr.tris 7).inRange = true := by decide

theorem test_assembler_does_not_truncate :
    (SourceInstr.addlw 0x1C2).assemble = none ∧ (SourceInstr.addlw 0xC2).assemble = some 0x3EC2 := by decide

/-! ### Decode: a word of every row (the words of S1 to S37 and table 2.1) -/

theorem test_decode_byte_oriented :
    decode 0x0720 = .ok (.addwf 0x20 .w) ∧ decode 0x05A0 = .ok (.andwf 0x20 .f) ∧ decode 0x01A0 = .ok (.clrf 0x20) ∧
      decode 0x0103 = .ok .clrw ∧ decode 0x0920 = .ok (.comf 0x20 .w) ∧ decode 0x03A0 = .ok (.decf 0x20 .f) ∧
      decode 0x0AA0 = .ok (.incf 0x20 .f) ∧ decode 0x0420 = .ok (.iorwf 0x20 .w) := by
  and_intros <;> rfl

theorem test_decode_byte_oriented_continued :
    decode 0x08A0 = .ok (.movf 0x20 .f) ∧ decode 0x00FF = .ok (.movwf 0x7F) ∧ decode 0x0D20 = .ok (.rlf 0x20 .w) ∧
      decode 0x0C20 = .ok (.rrf 0x20 .w) ∧ decode 0x02A0 = .ok (.subwf 0x20 .f) ∧ decode 0x0EA1 = .ok (.swapf 0x21 .f) ∧
      decode 0x06A0 = .ok (.xorwf 0x20 .f) := by
  and_intros <;> rfl

theorem test_decode_bit_oriented :
    decode 0x13A0 = .ok (.bcf 0x20 7) ∧ decode 0x1403 = .ok (.bsf 0x03 0) ∧ decode 0x1903 = .ok (.btfsc 0x03 2) ∧
      decode 0x1C83 = .ok (.btfss 0x03 1) ∧ decode 0x1FFF = .ok (.btfss 0x7F 7) := by
  and_intros <;> rfl

theorem test_decode_literal :
    decode 0x3F17 = .ok (.addlw 0x17) ∧ decode 0x39C2 = .ok (.andlw 0xC2) ∧ decode 0x3835 = .ok (.iorlw 0x35) ∧
      decode 0x335A = .ok (.movlw 0x5A) ∧ decode 0x3D02 = .ok (.sublw 0x02) ∧ decode 0x3AAF = .ok (.xorlw 0xAF) ∧
      decode 0x3FFF = .ok (.addlw 0xFF) := by
  and_intros <;> rfl

theorem test_decode_skips_and_transfers :
    decode 0x0BA0 = .ok (.decfsz 0x20 .f) ∧ decode 0x0FA0 = .ok (.incfsz 0x20 .f) ∧ decode 0x2123 = .ok (.call 0x123) ∧
      decode 0x2FFF = .ok (.goto 0x7FF) ∧ decode 0x0009 = .ok .retfie ∧ decode 0x3737 = .ok (.retlw 0x37) ∧
      decode 0x0008 = .ok .ret := by
  and_intros <;> rfl

theorem test_decode_system :
    decode 0x0000 = .ok .nop ∧ decode 0x0060 = .ok .nop ∧ decode 0x0063 = .ok .sleep ∧
      decode 0x0064 = .ok .clrwdt := by
  and_intros <;> rfl

theorem test_decode_low_range :
    decodeLow 0x002 = .ok .option ∧ decodeLow 0x005 = .ok (.tris 5) ∧ decodeLow 0x006 = .ok (.tris 6) ∧
      decodeLow 0x007 = .ok (.tris 7) ∧ decodeLow 0x004 = .error (.lowRange 0x004) := by
  and_intros <;> rfl

theorem test_decode_reserved :
    decode 0x0062 = .error (.illegal 0x0062) ∧ decode 0x000A = .error (.illegal 0x000A) ∧
      decode 0x3B00 = .error (.illegal 0x3B00) ∧ decode 0x3BFF = .error (.illegal 0x3BFF) := by
  and_intros <;> rfl

theorem test_table_words :
    decodeTableWord 14 0x3EC2 = some (.addlw 0xC2) ∧ decodeTableWord 16 0x0002 = some .option ∧
      decodeTableWord 12 0x005 = some (.tris 5) ∧ decodeTableWord 16 0x0062 = none ∧
      decodeTableWord 16 0x4000 = none := by decide

/-! ### One step -/

/-- Reset, with W, the register at 0x20 (the spec's REG) and C as given. -/
def start (w reg : Byte) (c : Bool) : State := { State.reset with w := w, c := c, data := Cells.write [] 0x20 reg }

/-- The state after the step that runs the word. -/
def after (word : Nat) (s : State) : Option State :=
  match step (s.withFetchWord 16 word) with
  | .next t => some t
  | .fault _ => none
  | .refused _ => none

/-- Why the step that runs the word is refused. -/
def whyRefused (word : Nat) (s : State) : Option Refusal :=
  match step (s.withFetchWord 16 word) with
  | .next _ => none
  | .fault _ => none
  | .refused r => some r

/-- W, the register at 0x20, C, DC, Z. -/
def result (t : State) : Byte × Byte × Bool × Bool × Bool := (t.w, Cells.read t.data 0x20, t.c, t.dc, t.z)

/-- S1. -/
theorem test_addlw : (after 0x3EC2 (start 0x17 0x00 true)).map result = some (0xD9, 0x00, false, false, false) := by decide

/-- Table 2.2, the wrap to zero. -/
theorem test_addlw_wraps : (after 0x3E01 (start 0xFF 0x00 false)).map result = some (0x00, 0x00, true, true, true) := by
  decide

/-- S2. -/
theorem test_addwf : (after 0x0720 (start 0x17 0xC2 true)).map result = some (0xD9, 0xC2, false, false, false) := by decide

/-- Table 2.2, carry and zero without digit carry; the destination is the register. -/
theorem test_addwf_to_register : (after 0x07A0 (start 0x80 0x80 false)).map result = some (0x80, 0x00, true, false, true) :=
  by decide

/-- S3 by rule R106. -/
theorem test_andlw : (after 0x39C2 (start 0x17 0x00 true)).map result = some (0x02, 0x00, true, false, false) := by decide

/-- S4 by rule R85. -/
theorem test_andwf : (after 0x0520 (start 0x17 0xC2 false)).map result = some (0x02, 0xC2, false, false, false) := by decide

/-- S4's printed values, those of `d = 1`. -/
theorem test_andwf_to_register : (after 0x05A0 (start 0x17 0xC2 false)).map result =
    some (0x17, 0x02, false, false, false) := by decide

/-- S5. -/
theorem test_bcf : (after 0x13A0 (start 0x00 0xC7 false)).map result = some (0x00, 0x47, false, false, false) := by decide

/-- Table 2.7: clearing bit 4 of STATUS with /TO = 1. -/
theorem test_bcf_to_of_status_is_refused : whyRefused 0x1203 (start 0x00 0x00 true) = some (.statusWrite 0x09) := by decide

/-- S6. -/
theorem test_bsf : (after 0x17A0 (start 0x00 0x0A false)).map result = some (0x00, 0x8A, false, false, false) := by decide

/-- Table 2.7: `BSF 0x03,0`. -/
theorem test_bsf_carry : (after 0x1403 (start 0x00 0x00 false)).map result = some (0x00, 0x00, true, false, false) := by
  decide

/-- Table 2.8, both ways. -/
theorem test_btfsc : (after 0x1B20 (start 0 0x00 false)).map (·.pc) = some 2 ∧
    (after 0x1B20 (start 0 0x40 false)).map (·.pc) = some 1 := by decide

/-- Table 2.8, both ways. -/
theorem test_btfss : (after 0x1F20 (start 0 0x40 false)).map (·.pc) = some 2 ∧
    (after 0x1F20 (start 0 0xBF false)).map (·.pc) = some 1 := by decide

/-- S9 and table 2.9: at 0x005, and at 0x7FF where the address pushed wraps. -/
theorem test_call :
    (after 0x2010 { State.reset with pc := 0x005 }).map (fun t => (t.pc, t.stack)) = some (0x010, [0x006]) ∧
      (after 0x2005 { State.reset with pc := 0x7FF }).map (fun t => (t.pc, t.stack)) = some (0x005, [0x000]) := by decide

/-- Table 2.9: eight entries. -/
theorem test_call_on_a_full_stack : whyRefused 0x2005 { State.reset with stack := List.replicate 8 0x001 } =
    some .stackOverflow := by decide

/-- S10. -/
theorem test_clrf : (after 0x01A0 (start 0x5A 0x5A false)).map result = some (0x5A, 0x00, false, false, true) := by decide

/-- Table 2.11. -/
theorem test_clrf_status_is_refused : whyRefused 0x0183 (start 0 0 false) = some .statusDestCollision := by decide

/-- S11, with the word of table 2.6. -/
theorem test_clrw : (after 0x0103 (start 0x5A 0x11 false)).map result = some (0x00, 0x11, false, false, true) := by decide

/-- S12, after a sleep. -/
theorem test_clrwdt : (after 0x0064 { State.reset with wdt := 7, wdtps := 3, nPD := false }).map
    (fun t => (t.wdt, t.wdtps, t.nTO, t.nPD, t.pc)) = some (0, 0, true, true, 1) := by decide

/-- S13. -/
theorem test_comf : (after 0x0920 (start 0x00 0x13 false)).map result = some (0xEC, 0x13, false, false, false) := by decide

/-- S14. -/
theorem test_decf : (after 0x03A0 (start 0x00 0x01 false)).map result = some (0x00, 0x00, false, false, true) := by decide

/-- Table 2.6: 0x00 wraps to 0xFF, C unchanged. -/
theorem test_decf_wraps : (after 0x0320 (start 0x00 0x00 true)).map result = some (0xFF, 0x00, true, false, false) := by
  decide

/-- Table 2.8: the skip, with no Z; and a zero counter. -/
theorem test_decfsz :
    (after 0x0BA0 (start 0 0x01 false)).map (fun t => (t.pc, result t)) = some (2, 0, 0x00, false, false, false) ∧
      (after 0x0BA0 (start 0 0x00 false)).map (fun t => (t.pc, Cells.read t.data 0x20)) = some (1, 0xFF) := by decide

/-- Table 2.8: `d = 0`. -/
theorem test_decfsz_to_w : (after 0x0B20 (start 0x77 0x01 false)).map (fun t => (t.pc, t.w, Cells.read t.data 0x20)) =
    some (2, 0x00, 0x01) := by decide

/-- S16. -/
theorem test_goto : (after 0x2FFF { State.reset with stack := [0x123] }).map (fun t => (t.pc, t.stack)) =
    some (0x7FF, [0x123]) := by decide

/-- S17: C stays 0. -/
theorem test_incf : (after 0x0AA0 (start 0x00 0xFF false)).map result = some (0x00, 0x00, false, false, true) := by decide

/-- Table 2.12: FSR reached through itself. -/
theorem test_incf_fsr_through_fsr : (after 0x0A80 { State.reset with fsr := 0x04 }).map (fun t => (t.fsr, t.z)) =
    some (0x05, false) := by decide

/-- Table 2.8. -/
theorem test_incfsz :
    (after 0x0FA0 (start 0 0xFF false)).map (fun t => (t.pc, result t)) = some (2, 0, 0x00, false, false, false) ∧
      (after 0x0F20 (start 0 0xFE false)).map (fun t => (t.pc, t.w)) = some (1, 0xFF) := by decide

/-- S19. -/
theorem test_iorlw : (after 0x3835 (start 0x9A 0x00 false)).map result = some (0xBF, 0x00, false, false, false) := by decide

/-- S20. -/
theorem test_iorwf : (after 0x0420 (start 0x91 0x13 false)).map result = some (0x93, 0x13, false, false, false) := by decide

/-- S21, and table 2.6: Z is not written. -/
theorem test_movlw : (after 0x305A (start 0x00 0x4F true)).map result = some (0x5A, 0x4F, true, false, false) ∧
    (after 0x3000 (start 0x5A 0x4F true)).map result = some (0x00, 0x4F, true, false, false) := by decide

/-- Table 2.6. -/
theorem test_movf_tests_for_zero : (after 0x08A0 (start 0x55 0x00 false)).map result =
    some (0x55, 0x00, false, false, true) := by decide

/-- Table 2.11, second row: STATUS is read before Z is written. -/
theorem test_movf_status : (after 0x0803 { State.reset with z := true }).map (fun t => (t.w, t.z, t.statusByte)) =
    some (0x1C, false, 0x18) := by decide

/-- S23. -/
theorem test_movwf : (after 0x00A0 (start 0x4F 0xFF false)).map result = some (0x4F, 0x4F, false, false, false) := by decide

/-- Table 2.11: a STATUS write that is allowed and one that is not. -/
theorem test_movwf_status : (after 0x0083 (start 0x1F 0 false)).map (fun t => (t.z, t.dc, t.c)) = some (true, true, true) ∧
    whyRefused 0x0083 (start 0x07 0 false) = some (.statusWrite 0x07) := by decide

/-- S24 by rule R131: only `pc`. -/
theorem test_nop : after 0x0000 State.reset = some { State.reset with pc := 1 } := by decide

/-- S25. -/
theorem test_retfie : (after 0x0009 { State.reset with stack := [0x006] }).map (fun t => (t.pc, t.gie, t.stack)) =
    some (0x006, true, []) := by decide

/-- Table 2.9. -/
theorem test_retfie_on_the_empty_stack : whyRefused 0x0009 State.reset = some .stackUnderflow := by decide

/-- S26 and table 2.9. -/
theorem test_retlw : (after 0x3437 { State.reset with stack := [0x006, 0x123] }).map (fun t => (t.pc, t.w, t.stack)) =
    some (0x006, 0x37, [0x123]) := by decide

/-- S27. -/
theorem test_return : (after 0x0008 { State.reset with stack := [0x006], gie := false }).map
    (fun t => (t.pc, t.gie, t.stack)) = some (0x006, false, []) := by decide

/-- S28 by rule R94. -/
theorem test_rlf : (after 0x0D20 (start 0x00 0xE6 false)).map result = some (0xCC, 0xE6, true, false, false) := by decide

/-- Table 2.5: C enters at bit 0. -/
theorem test_rlf_carry_in : (after 0x0DA0 (start 0x00 0x55 true)).map result = some (0x00, 0xAB, false, false, false) := by
  decide

/-- S29 by rule R95. -/
theorem test_rrf : (after 0x0C20 (start 0x00 0xE6 true)).map result = some (0xF3, 0xE6, false, false, false) := by decide

/-- Table 2.5: a zero result leaves Z. -/
theorem test_rrf_to_zero : (after 0x0CA0 (start 0x00 0x01 false)).map result = some (0x00, 0x00, true, false, false) := by
  decide

/-- S30 by rule R132. -/
theorem test_sleep : (after 0x0063 { State.reset with wdt := 7, wdtps := 3 }).map
    (fun t => (t.run, t.wdt, t.wdtps, t.nTO, t.nPD, t.pc)) = some (.sleeping, 0, 0, true, false, 1) := by decide

/-- S31, case 3. -/
theorem test_sublw_negative : (after 0x3C02 (start 3 0 true)).map result = some (0xFF, 0, false, false, false) := by decide

/-- Table 2.3: borrow with DC = 1. -/
theorem test_sublw_digit : (after 0x3C5A (start 0xA5 0 true)).map result = some (0xB5, 0, false, true, false) := by decide

/-- S32, case 1. -/
theorem test_subwf : (after 0x02A0 (start 0x02 0x03 false)).map result = some (0x02, 0x01, true, true, false) := by decide

/-- S32, case 3. -/
theorem test_subwf_negative : (after 0x02A0 (start 0x02 0x01 true)).map result = some (0x02, 0xFF, false, false, false) := by
  decide

/-- S33. -/
theorem test_swapf : (after 0x0E20 (start 0x00 0xA5 true)).map result = some (0x5A, 0xA5, true, false, false) := by decide

/-- S34. -/
theorem test_xorlw : (after 0x3AAF (start 0xB5 0 false)).map result = some (0x1A, 0, false, false, false) := by decide

/-- S35 by rule R98. -/
theorem test_xorwf : (after 0x0620 (start 0xB5 0xAF false)).map result = some (0x1A, 0xAF, false, false, false) := by decide

/-- S36. -/
theorem test_option : (after 0x0002 { State.reset with w := 0x06, option := 0x37 }).map (fun t => (t.w, t.option)) =
    some (0x06, 0x06) := by decide

/-- S37, and the operand outside 5 to 7. -/
theorem test_tris : (after 0x0005 { State.reset with w := 0xA5, trisa := 0x56 }).map (fun t => (t.w, t.trisa)) =
    some (0xA5, 0xA5) ∧ (after 0x0007 { State.reset with w := 0xA5 }).map (fun t => (t.trisa, t.trisc)) =
    some (0x00, 0xA5) := by decide

/-! ### Refusals, interrupts, sleep (tables 2.12 to 2.14) -/

theorem test_refused_addresses :
    whyRefused 0x0801 State.reset = some (.unmodelledAddress 0x01) ∧
      whyRefused 0x081F State.reset = some (.unmodelledAddress 0x1F) ∧
      whyRefused 0x0782 State.reset = some .pclAccess ∧ whyRefused 0x0080 State.reset = some .indirectThroughIndf ∧
      whyRefused 0x0080 { State.reset with fsr := 0x80 } = some .bankedIndirect := by decide

theorem test_refused_word : whyRefused 0x3B00 State.reset = some (.illegalInstruction 0x3B00) := by decide

/-- The last address has storage; a skip there wraps (R17). -/
theorem test_top_of_the_data_area :
    (after 0x00FF { State.reset with w := 0xAA }).map (fun t => Cells.read t.data 0x7F) = some 0xAA ∧
      (after 0x1903 { State.reset with pc := 0x7FF }).map (·.pc) = some 0x001 := by decide

/-- Table 2.14, first row. -/
theorem test_interrupt_entry :
    step { State.reset with gie := true, pc := 0x123, irq := { upcoming := [true], thereafter := .repeating false [] } } =
      .next { State.reset with gie := false, pc := 0x004, stack := [0x123], irq := { upcoming := [], thereafter := .repeating false [] } } :=
  rfl

/-- Requests can recur for ever, with other code between them: every other boundary has one (R150). -/
theorem test_requests_recur_for_ever (n : Nat) :
    let a : Answers := { upcoming := [], thereafter := .repeating true [false] }
    a.answer (2 * n) = true ∧ a.answer (2 * n + 1) = false := by
  induction n with
  | zero => exact ⟨rfl, rfl⟩
  | succ n ih => exact ih

/-- An environment free of any law is asked for its next answer at each boundary (R150). -/
theorem test_a_free_request_is_asked_at_each_boundary :
    (step { State.reset with irq := { upcoming := [], thereafter := .free 0 5 } }) =
      .next { State.reset with pc := 0x001, irq := { upcoming := [], thereafter := .free 0 6 } } := rfl

/-! ### Witnesses

For each statement with hypotheses, a concrete state and operands that meet them, clause by clause. -/

/-- A machine with one register at each end of the general-purpose range holding something. -/
def ready : State := { State.reset with w := 0x11, data := [(0x20, 0xC2), (0x7F, 0x01)] }

/-- The same, FSR as given. -/
def pointing (a : Byte) : State := { ready with fsr := a }

/-- The same, with GIE at bit 7 of address 0x0B. -/
def withGieReg : State := { ready with params := { Params.reference with gieMap := some ⟨0x0B, 7⟩ } }

/-- A low-range machine. -/
def lowCore : State := { State.reset with params := { Params.reference with range := .low } }

theorem witness_DecodeOfEncodeIsTheInstruction :
    (Instr.tris 5).wellFormed = true ∧ (Instr.tris 7).wellFormed = true ∧ (Instr.bcf 0x7F 7).wellFormed = true := by decide

theorem witness_EncodeOfDecodeClearsDontCareBits : decode 0x33FF = .ok (.movlw 0xFF) ∧ decode 0x0060 = .ok .nop := ⟨rfl, rfl⟩

theorem witness_WordIsOfRowExactlyWhenMaskMatches :
    (⟨0x3E00, 0x3E00, 0x0100⟩ : OpcodeRow) ∈ opcodeMap ∧
      (⟨0x3E00, 0x3E00, 0x0100⟩ : OpcodeRow).holds 0x3FFF = true ∧
      (⟨0x0600, 0x3F00, 0⟩ : OpcodeRow) ∈ opcodeMap ∧ (⟨0x0600, 0x3F00, 0⟩ : OpcodeRow).holds 0x0600 = true := by decide

/-- The lowest and the highest reserved word, at the first and at the last address. -/
theorem witness_ReservedWordsAreRefused :
    let s := { ready with prog := [(0x000, 0x0001), (0x7FF, 0x3BFF)] }
    launchRefusal s.params = none ∧ s.params.range = .mid ∧ s.run = .running ∧ interruptDue s = false ∧
      s.pc.toNat < s.params.progWords ∧ reservedWord (progRead 0x000 s) ∧ reservedWord (progRead 0x7FF s) := by
  unfold reservedWord; decide

theorem witness_DontCareBitsDoNotMatter :
    decode 0x3E17 = .ok (.addlw 0x17) ∧ (Instr.addlw 0x17).row.dontCare = 0x0100 ∧ decode 0x3F17 = .ok (.addlw 0x17) ∧
      (Instr.tris 7).wellFormed = true :=
  ⟨rfl, rfl, rfl, rfl⟩

/-- The first number outside each range and the last one inside. -/
theorem witness_AssemblerRejectsOutOfRangeOperands :
    (¬inStatedRange (.goto 2048) ∧ inStatedRange (.goto 2047)) ∧ (¬inStatedRange (.addlw 256) ∧ inStatedRange (.addlw 255)) ∧
      (¬inStatedRange (.addwf 128 0) ∧ ¬inStatedRange (.addwf 127 2) ∧ inStatedRange (.addwf 127 1)) ∧
      (¬inStatedRange (.bcf 127 8) ∧ inStatedRange (.bcf 127 7)) ∧ (¬inStatedRange (.clrf 128) ∧ inStatedRange (.clrf 0)) ∧
      (¬inStatedRange (.tris 4) ∧ ¬inStatedRange (.tris 8) ∧ inStatedRange (.tris 5) ∧ inStatedRange (.tris 7)) := by
  simp [inStatedRange]

theorem witness_EffectiveAddressIsDirectOrThroughFsr :
    (0x01 : DataAddr) ≠ 0x00 ∧ (pointing 0x80).fsr.getLsbD 7 = true ∧
      ((pointing 0x00).fsr.getLsbD 7 = false ∧ (pointing 0x00).fsr.setWidth 7 = (0 : DataAddr)) ∧
      ((pointing 0x7F).fsr.getLsbD 7 = false ∧ (pointing 0x7F).fsr.setWidth 7 ≠ (0 : DataAddr)) ∧
      memRead 0x20 ready = .ok (0xC2, ready) := by
  and_intros <;> first | rfl | decide

/-- The classes at the ends of their ranges: 0x20 and 0x7F are registers, 0x1F and 0x01 nothing, 0x0B GIEREG. -/
theorem witness_ReadGivesWhatTheAddressClassSays :
    paramsValid withGieReg.params = true ∧ withGieReg.params.gprLo = 0x20 ∧ withGieReg.params.gprHi = 0x7F ∧
      withGieReg.params.gieMap = some ⟨0x0B, 7⟩ ∧ ¬(withGieReg.params.gprLo ≤ 0x1F) ∧
      (∀ i, withGieReg.params.gieMap ≠ some ⟨0x1F, i⟩) ∧ (∀ i, withGieReg.params.gieMap ≠ some ⟨0x01, i⟩) := by
  decide

/-- As for reads; and the two kinds of STATUS write. -/
theorem witness_WriteDoesWhatTheAddressClassSays :
    paramsValid withGieReg.params = true ∧ withGieReg.params.gieMap = some ⟨0x0B, 7⟩ ∧
      (∀ i, withGieReg.params.gieMap ≠ some ⟨0x1F, i⟩) ∧
      (∀ j, 3 ≤ j → (0x1F : Byte).getLsbD j = withGieReg.statusByte.getLsbD j) ∧
      (∃ j, 3 ≤ j ∧ (0x17 : Byte).getLsbD j ≠ withGieReg.statusByte.getLsbD j) := by
  refine ⟨by decide, by decide, by decide, fun j hj => ?_, 3, by decide⟩
  by_cases h : j < 8
  · have key : ∀ j : Fin 8, 3 ≤ j.val → (0x1F : Byte).getLsbD j = withGieReg.statusByte.getLsbD j := by decide
    exact key ⟨j, h⟩ hj
  · rw [BitVec.getLsbD_of_ge _ _ (by omega), BitVec.getLsbD_of_ge _ _ (by omega)]

theorem witness_ReadBackGivesTheLastValueWritten :
    (∃ t, memWrite 0x7F 0xAA ready = .ok t) ∧ classOf ready.params 0x7F = .gpr ∧ classOf ready.params 0x20 = .gpr ∧
      (∃ t, memWrite 0x04 0xAA ready = .ok t) ∧ classOf ready.params 0x04 = .fsr ∧
      (∃ t, memWrite 0x03 0x1F ready = .ok t) ∧ classOf ready.params 0x03 = .status :=
  ⟨⟨_, rfl⟩, rfl, rfl, ⟨_, rfl⟩, rfl, ⟨_, rfl⟩, rfl⟩

/-- At both ends of the general-purpose range, and FSR; directly and through FSR. -/
theorem witness_FileInstructionsCompleteOnPlainStorage :
    (fileField (.incf 0x20 .f) = some 0x20 ∧ effectiveAddress 0x20 ready = .ok 0x20 ∧ classOf ready.params 0x20 = .gpr) ∧
      (fileField (.clrf 0x00) = some 0x00 ∧ effectiveAddress 0x00 (pointing 0x7F) = .ok 0x7F ∧
        classOf (pointing 0x7F).params 0x7F = .gpr) ∧
      (fileField (.bsf 0x04 7) = some 0x04 ∧ effectiveAddress 0x04 ready = .ok 0x04 ∧ classOf ready.params 0x04 = .fsr) := by
  and_intros <;> rfl

/-- What a statement of the form `FormatB` assumes, clause by clause, at concrete states: a direct read at 0x20, an indirect
one at 0x7F, a read of STATUS; a store at 0x20 and one at FSR; `EA` refused both ways; a read refused at 0x02, 0x01 and
0x1F; STATUS as the destination; and, in `bad`, a STATUS write that is refused. -/
def FormatBMet (affectsFlags : Bool) (value : State → Byte → Byte) (bad : State) : Prop :=
  (effectiveAddress 0x20 ready = .ok 0x20 ∧ memRead 0x20 ready = .ok (0xC2, ready)) ∧
  (effectiveAddress 0x00 (pointing 0x7F) = .ok 0x7F ∧ memRead 0x7F (pointing 0x7F) = .ok (0x01, pointing 0x7F)) ∧
  (effectiveAddress 0x03 ready = .ok 0x03 ∧ memRead 0x03 ready = .ok (0x18, ready)) ∧
  ((0x20 : DataAddr) ≠ statusAddr ∧ ∃ u, memWrite 0x20 (value ready 0xC2) ready = .ok u) ∧
  ((0x04 : DataAddr) ≠ statusAddr ∧ ∃ u, memWrite 0x04 (value ready 0x00) ready = .ok u) ∧
  (effectiveAddress 0x00 (pointing 0x80) = .error .bankedIndirect ∧
    effectiveAddress 0x00 (pointing 0x00) = .error .indirectThroughIndf) ∧
  (effectiveAddress 0x02 ready = .ok 0x02 ∧ memRead 0x02 ready = .error .pclAccess) ∧
  (memRead 0x01 ready = .error (.unmodelledAddress 0x01) ∧ memRead 0x1F ready = .error (.unmodelledAddress 0x1F)) ∧
  effectiveAddress 0x00 (pointing 0x03) = .ok statusAddr ∧
  (affectsFlags = false → ∃ v r, memRead 0x03 bad = .ok (v, bad) ∧ memWrite 0x03 (value bad v) bad = .error r)

/-- All of it but the last clause holds of every operation. -/
theorem formatBMet (affectsFlags : Bool) (value : State → Byte → Byte) (bad : State)
    (h : affectsFlags = false → ∃ v r, memRead 0x03 bad = .ok (v, bad) ∧ memWrite 0x03 (value bad v) bad = .error r) :
    FormatBMet affectsFlags value bad :=
  ⟨⟨rfl, rfl⟩, ⟨rfl, rfl⟩, ⟨rfl, rfl⟩, ⟨by decide, _, rfl⟩, ⟨by decide, _, rfl⟩, ⟨rfl, rfl⟩, ⟨rfl, rfl⟩, ⟨rfl, rfl⟩, rfl, h⟩

theorem witness_AddwfAddsWAndTheRegister : FormatBMet true (fun s v => s.w + v) ready := formatBMet _ _ _ nofun

theorem witness_SubwfSubtractsWFromTheRegister : FormatBMet true (fun s v => v - s.w) ready := formatBMet _ _ _ nofun

theorem witness_LogicOfWAndTheRegister :
    FormatBMet true (fun s v => s.w &&& v) ready ∧ FormatBMet true (fun s v => s.w ||| v) ready ∧
      FormatBMet true (fun s v => s.w ^^^ v) ready :=
  ⟨formatBMet _ _ _ nofun, formatBMet _ _ _ nofun, formatBMet _ _ _ nofun⟩

theorem witness_OneOperandFileInstructions :
    FormatBMet true (fun _ v => ~~~v) ready ∧ FormatBMet true (fun _ v => v - 1) ready ∧
      FormatBMet true (fun _ v => v + 1) ready ∧ FormatBMet true (fun _ v => v) ready :=
  ⟨formatBMet _ _ _ nofun, formatBMet _ _ _ nofun, formatBMet _ _ _ nofun, formatBMet _ _ _ nofun⟩

theorem witness_RotatesGoThroughCarry :
    FormatBMet true (fun s v => .ofNat 8 (2 * v.toNat + s.c.toNat)) ready ∧
      FormatBMet true (fun s v => .ofNat 8 (v.toNat / 2 + 128 * s.c.toNat)) ready :=
  ⟨formatBMet _ _ _ nofun, formatBMet _ _ _ nofun⟩

/-- STATUS reads 0x18 after reset and the exchanged value is 0x81. -/
theorem witness_SwapfExchangesTheNibbles :
    FormatBMet false (fun _ v => .ofNat 8 (16 * (v.toNat % 16) + v.toNat / 16)) ready :=
  formatBMet _ _ _ fun _ => ⟨0x18, .statusWrite 0x81, rfl, rfl⟩

/-- Table 2.11: from 0x18 DECFSZ would write 0x17; from 0x1F INCFSZ would write 0x20. -/
theorem witness_CountAndSkip :
    FormatBMet false (fun _ v => v - 1) ready ∧
      FormatBMet false (fun _ v => v + 1) { ready with z := true, dc := true, c := true } ∧
      (ready.skipIf true).pc = ready.pc + 2 ∧ (ready.skipIf false).pc = ready.pc + 1 :=
  ⟨formatBMet _ _ _ fun _ => ⟨0x18, .statusWrite 0x17, rfl, rfl⟩,
    formatBMet _ _ _ fun _ => ⟨0x1F, .statusWrite 0x20, rfl, rfl⟩, rfl, rfl⟩

/-- A store at 0x20, one through FSR at 0x7F; `EA` refused; the write refused at 0x02 and 0x1F, and of STATUS by MOVWF;
STATUS as CLRF's destination. -/
theorem witness_ClrfAndMovwfStore :
    (effectiveAddress 0x20 ready = .ok 0x20 ∧ (0x20 : DataAddr) ≠ statusAddr ∧ ∃ u, memWrite 0x20 0 ready = .ok u) ∧
      (effectiveAddress 0x00 (pointing 0x7F) = .ok 0x7F ∧ ∃ u, memWrite 0x7F 0x11 (pointing 0x7F) = .ok u) ∧
      effectiveAddress 0x00 (pointing 0xFF) = .error .bankedIndirect ∧
      (effectiveAddress 0x02 ready = .ok 0x02 ∧ memWrite 0x02 0 ready = .error .pclAccess) ∧
      memWrite 0x1F 0 ready = .error (.unmodelledAddress 0x1F) ∧
      memWrite 0x03 0x11 ready = .error (.statusWrite 0x11) ∧ effectiveAddress 0x03 ready = .ok statusAddr :=
  ⟨⟨rfl, by decide, _, rfl⟩, ⟨rfl, _, rfl⟩, rfl, ⟨rfl, rfl⟩, rfl, rfl, rfl⟩

theorem witness_RotateLeftThenRightIsIdentity :
    (0x7F : DataAddr) ≠ indfAddr ∧ classOf ready.params 0x7F = .gpr ∧
      ∃ t u, exec (.rlf 0x7F .f) ready = .next t ∧ exec (.rrf 0x7F .f) t = .next u :=
  ⟨by decide, rfl, _, _, rfl, rfl⟩

/-- Bit 7 and bit 0 of the register at 0x20, where 0xC2 becomes 0x42 and 0xC3; a STATUS write refused each way; the other
refusals. -/
theorem witness_BitClearAndBitSet :
    (effectiveAddress 0x20 ready = .ok 0x20 ∧ memRead 0x20 ready = .ok (0xC2, ready)) ∧
      (∀ j < 8, (0x42 : Byte).getLsbD j = if j = (7 : BitNum).toNat then false else (0xC2 : Byte).getLsbD j) ∧
      (∃ u, memWrite 0x20 0x42 ready = .ok u) ∧
      (∀ j < 8, (0xC3 : Byte).getLsbD j = if j = (0 : BitNum).toNat then true else (0xC2 : Byte).getLsbD j) ∧
      (∃ u, memWrite 0x20 0xC3 ready = .ok u) ∧
      (effectiveAddress 0x03 ready = .ok 0x03 ∧ memRead 0x03 ready = .ok (0x18, ready)) ∧
      (∀ j < 8, (0x10 : Byte).getLsbD j = if j = (3 : BitNum).toNat then false else (0x18 : Byte).getLsbD j) ∧
      memWrite 0x03 0x10 ready = .error (.statusWrite 0x10) ∧
      (∀ j < 8, (0x98 : Byte).getLsbD j = if j = (7 : BitNum).toNat then true else (0x18 : Byte).getLsbD j) ∧
      memWrite 0x03 0x98 ready = .error (.statusWrite 0x98) ∧
      effectiveAddress 0x00 (pointing 0x80) = .error .bankedIndirect ∧
      (effectiveAddress 0x1F ready = .ok 0x1F ∧ memRead 0x1F ready = .error (.unmodelledAddress 0x1F)) :=
  ⟨⟨rfl, rfl⟩, by decide, ⟨_, rfl⟩, by decide, ⟨_, rfl⟩, ⟨rfl, rfl⟩, by decide, rfl, by decide, rfl, rfl, rfl, rfl⟩

/-- Both values of /PD and of /TO. -/
theorem witness_BitInstructionsOnStatus :
    (ready.nPD = true ∧ ({ ready with nPD := false } : State).nPD = false) ∧
      (ready.nTO = true ∧ ({ ready with nTO := false } : State).nTO = false) := by decide

theorem witness_BitTestsSkip :
    (effectiveAddress 0x20 ready = .ok 0x20 ∧ memRead 0x20 ready = .ok (0xC2, ready)) ∧
      (0xC2 : Byte).getLsbD 7 = true ∧ (0xC2 : Byte).getLsbD 0 = false ∧
      effectiveAddress 0x00 (pointing 0x00) = .error .indirectThroughIndf ∧
      (effectiveAddress 0x02 ready = .ok 0x02 ∧ memRead 0x02 ready = .error .pclAccess) ∧
      (ready.skipIf true).pc = ready.pc + 2 ∧ (ready.skipIf false).pc = ready.pc + 1 := by
  and_intros <;> rfl

/-- On the mid range. -/
theorem witness_GotoLoadsThePc : ready.params.range = .mid := rfl

/-- Seven entries leave room, eight do not. -/
theorem witness_CallPushesTheNextAddress :
    ready.params.range = .mid ∧ ({ ready with stack := List.replicate 7 0x001 } : State).stack.length < 8 ∧
      ({ ready with stack := List.replicate 8 0x001 } : State).stack.length = 8 := by decide

/-- One entry, with a request that holds; and the empty stack. -/
theorem witness_ReturnsPopTheAddress :
    let s := { ready with stack := [0x7FF], irq := { upcoming := [true], thereafter := .repeating false [] } }
    (s.stack = 0x7FF :: [] ∧ s.params.range = .mid ∧ s.run = .running ∧ s.irq.now = true) ∧ ready.stack = [] := by decide

theorem witness_CallThenReturnGoesOnAfterTheCall : ∃ t, exec (.call 0x7FF) ready = .next t := ⟨_, rfl⟩

theorem witness_OptionAndTrisLoadTheirRegister : (4 : BitNum).toNat < 5 ∧ (0 : BitNum).toNat < 5 := by decide

/-- At the last address of the program, on both cores. -/
theorem witness_StepRunsTheDecodedInstruction :
    let s := { ready with pc := 0x7FF, prog := [(0x7FF, 0x30FF)] }
    let l := { lowCore with pc := 0x7FF, prog := [(0x7FF, 0x0007)] }
    (launchRefusal s.params = none ∧ s.run = .running ∧ interruptDue s = false ∧ s.pc.toNat < s.params.progWords ∧
        decodeFor s.params.range (progRead s.pc s) = .ok (.movlw 0xFF)) ∧
      (launchRefusal l.params = none ∧ l.run = .running ∧ interruptDue l = false ∧ l.pc.toNat < l.params.progWords ∧
        decodeFor l.params.range (progRead l.pc l) = .ok (.tris 7)) := by
  and_intros <;> first | rfl | decide

theorem witness_LoadedWordIsRunByTheNextStep :
    launchRefusal ready.params = none ∧ decodeTableWord 16 0x3FFF = some (.addlw 0xFF) ∧
      decodeTableWord 16 0x0005 = some (.tris 5) := by decide

/-- The first address past a program of one word. -/
theorem witness_FetchBeyondTheProgramIsRefused :
    let s := { ready with pc := 0x001, params := { Params.reference with progWords := 1 } }
    launchRefusal s.params = none ∧ s.run = .running ∧ interruptDue s = false ∧ s.params.progWords ≤ s.pc.toNat := by decide

/-- With a request that holds, GIE set, and seven or eight entries on the stack. -/
theorem witness_InterruptEntryPushesAndDisables :
    let s := { ready with gie := true, irq := { upcoming := [true], thereafter := .repeating false [] } }
    launchRefusal s.params = none ∧ s.params.range = .mid ∧ s.run = .running ∧ s.gie = true ∧ s.irq.now = true ∧
      ({ s with stack := List.replicate 7 0x001 } : State).stack.length < 8 ∧
      ({ s with stack := List.replicate 8 0x001 } : State).stack.length = 8 := by decide

/-- A request that holds with GIE 0; and no request with GIE 1. -/
theorem witness_NoInterruptWhileDisabled :
    let s := { ready with irq := { upcoming := [true], thereafter := .repeating true [] } }
    let u := { ready with gie := true }
    (s.run = .running ∧ s.gie = false ∧ ∃ t, step s = .next t) ∧
      (u.run = .running ∧ u.irq.now = false ∧ ∃ t, step u = .next t) :=
  ⟨⟨rfl, rfl, _, rfl⟩, rfl, rfl, _, rfl⟩

theorem witness_RetfieUndoesInterruptEntry :
    let s := { ready with gie := true, pc := 0x123 }
    s.gie = true ∧ ∃ t, takeInterrupt s = .ok t := ⟨rfl, _, rfl⟩

theorem witness_SleepingCoreOnlyWakes :
    let s := { ready with run := .sleeping }
    launchRefusal s.params = none ∧ s.run = .sleeping ∧ s.wake.now = false ∧
      ({ s with wake := { upcoming := [true], thereafter := .repeating false [] } } : State).wake.now = true := by decide

theorem witness_EndedRunStaysEnded :
    let s := { ready with run := .sleeping, wake := { upcoming := [false], thereafter := .repeating false [] } }
    launchRefusal s.params = none ∧ s.ended :=
  ⟨rfl, rfl, fun n => by cases n with
    | zero => rfl
    | succ n => exact Answers.never_isNever n⟩

theorem witness_ResetStateIsTheTable : ready.params.range = .mid := rfl

/-- A general-purpose range that starts at 0x04, a GIE_MAP inside the range or below 0x05, no program; and the watchdog. -/
theorem witness_BadLaunchIsRefused :
    paramsValid { Params.reference with gprLo := 0x04 } = false ∧
      paramsValid { Params.reference with gieMap := some ⟨0x20, 7⟩ } = false ∧
      paramsValid { Params.reference with gieMap := some ⟨0x04, 7⟩ } = false ∧
      paramsValid { Params.reference with progWords := 0 } = false ∧
      paramsValid { Params.reference with wdtEnabled := true } = true := by decide

/-- A state with data, a program and a return address, whose step is a CALL. -/
def busy : State := { ready with stack := [0x001], prog := [(0x000, 0x2005), (0x7FF, 0x0063)] }

theorem witness_EveryStepKeepsTheStateInvariant : Inv busy ∧ ∃ t, step busy = .next t := by
  refine ⟨⟨by decide, by decide, ?_, by decide, by decide⟩, _, rfl⟩
  intro e he
  rcases List.mem_cons.1 he with rfl | he
  · exact ⟨0x20, rfl, rfl⟩
  · rcases List.mem_singleton.1 he with rfl
    exact ⟨0x7F, rfl, rfl⟩

theorem witness_NoStepWritesTheProgram : ∃ t, step busy = .next t := ⟨_, rfl⟩

/-- RETFIE sets GIE; interrupt entry clears it. -/
theorem witness_OnlyRetfieSetsGie :
    let s := { busy with prog := [(0x000, 0x0009)] }
    let u := { busy with gie := true, irq := { upcoming := [], thereafter := .repeating true [] } }
    (s.params.gieMap = none ∧ s.gie = false ∧ ∃ t, step s = .next t ∧ t.gie = true) ∧
      (u.params.gieMap = none ∧ u.gie = true ∧ ∃ t, step u = .next t ∧ t.gie = false) :=
  ⟨⟨rfl, rfl, _, rfl, rfl⟩, rfl, rfl, _, rfl, rfl⟩

/-- SLEEP clears /PD; CLRWDT clears the watchdog and sets /TO. -/
theorem witness_WatchdogBitsChangeOnlyByClrwdtAndSleep :
    let s := { busy with prog := [(0x000, 0x0063)] }
    let u := { busy with nTO := false, wdt := 3, prog := [(0x000, 0x0064)] }
    (s.nPD = true ∧ ∃ t, step s = .next t ∧ t.nPD = false) ∧ ∃ t, step u = .next t ∧ t.nTO ≠ u.nTO ∧ t.wdt ≠ u.wdt :=
  ⟨⟨rfl, _, rfl, rfl⟩, _, rfl, by decide, by decide⟩

theorem witness_OnlySleepStopsTheCore :
    let s := { busy with prog := [(0x000, 0x0063)] }
    let u := { busy with run := .sleeping, wake := { upcoming := [true], thereafter := .repeating false [] } }
    (s.run = .running ∧ ∃ t, step s = .next t ∧ t.run = .sleeping) ∧
      (u.run = .sleeping ∧ ∃ t, step u = .next t ∧ t.run = .running) :=
  ⟨⟨rfl, _, rfl, rfl⟩, rfl, _, rfl, rfl⟩

/-- A store at 0x7F leaves 0x20; an instruction that stores nothing leaves both. -/
theorem witness_DataFrameOfEveryInstruction :
    (∃ t, exec (.bsf 0x7F 7) ready = .next t) ∧ storeTarget (.bsf 0x7F 7) ready = some 0x7F ∧
      (∃ t, exec (.btfss 0x7F 7) ready = .next t) ∧ storeTarget (.btfss 0x7F 7) ready = none :=
  ⟨⟨_, rfl⟩, rfl, ⟨_, rfl⟩, rfl⟩

/-- MOVWF lists no flag and stores to a register; INCF lists neither C nor DC; RLF lists C alone. -/
theorem witness_FlagFrameOfEveryInstruction :
    ((∃ t, exec (.movwf 0x20) ready = .next t) ∧ listsC (.movwf 0x20) = false ∧ listsDC (.movwf 0x20) = false ∧
        listsZ (.movwf 0x20) = false ∧ storeTarget (.movwf 0x20) ready ≠ some 0x03) ∧
      ((∃ t, exec (.incf 0x20 .f) ready = .next t) ∧ listsC (.incf 0x20 .f) = false ∧ listsDC (.incf 0x20 .f) = false) ∧
      ((∃ t, exec (.rlf 0x20 .w) ready = .next t) ∧ listsDC (.rlf 0x20 .w) = false ∧ listsZ (.rlf 0x20 .w) = false) := by
  exact ⟨⟨⟨_, rfl⟩, rfl, rfl, rfl, by decide⟩, ⟨⟨_, rfl⟩, rfl, rfl⟩, ⟨_, rfl⟩, rfl, rfl⟩

/-- A store to FSR leaves W; a load of W leaves FSR; a store to a register leaves GIE where it has an address. -/
theorem witness_RegisterFrameOfEveryInstruction :
    ((∃ t, exec (.movwf 0x04) ready = .next t) ∧ writesW (.movwf 0x04) = false) ∧
      ((∃ t, exec (.movf 0x04 .w) ready = .next t) ∧ storeTarget (.movf 0x04 .w) ready ≠ some 0x04) ∧
      ((∃ t, exec (.movwf 0x20) withGieReg = .next t) ∧ storeTarget (.movwf 0x20) withGieReg = some 0x20 ∧
        ∀ b, classOf withGieReg.params 0x20 ≠ .gieReg b) ∧
      ∃ t, exec (.tris 6) ready = .next t :=
  ⟨⟨⟨_, rfl⟩, rfl⟩, ⟨⟨_, rfl⟩, by decide⟩, ⟨⟨_, rfl⟩, rfl, by decide⟩, _, rfl⟩

theorem witness_ControlFrameOfEveryInstruction :
    (∃ t, exec (.goto 0x7FF) busy = .next t) ∧ (∃ t, exec (.incf 0x20 .f) busy = .next t) ∧
      isTransfer (.incf 0x20 .f) = false :=
  ⟨⟨_, rfl⟩, ⟨_, rfl⟩, rfl⟩

theorem witness_PcAdvancesUnlessTransfer :
    ((∃ t, exec (.movlw 0x00) ready = .next t) ∧ isTransfer (.movlw 0x00) = false ∧ isSkip (.movlw 0x00) = false) ∧
      ((∃ t, exec (.btfsc 0x7F 0) ready = .next t) ∧ isSkip (.btfsc 0x7F 0) = true) :=
  ⟨⟨⟨_, rfl⟩, rfl, rfl⟩, ⟨_, rfl⟩, rfl⟩

/-- A taken skip, a transfer to the next address, a skip not taken. -/
theorem witness_CyclesFollowThePc :
    (∃ t, exec (.btfss 0x7F 0) ready = .next t ∧ t.pc ≠ ready.pc + 1) ∧
      (∃ t, exec (.goto 0x001) ready = .next t ∧ t.pc = ready.pc + 1) ∧
      (∃ t, exec (.btfsc 0x7F 0) ready = .next t ∧ t.pc = ready.pc + 1) ∧ (Instr.btfsc 0x7F 0).range = .mid :=
  ⟨⟨_, rfl, by decide⟩, ⟨_, rfl, rfl⟩, ⟨_, rfl, rfl⟩, rfl⟩

/-- STATUS named directly and through FSR. -/
theorem witness_FlagAffectingStoreToStatusIsRefused :
    (listsC (.rlf 0x03 .f) = true ∧ storeTarget (.rlf 0x03 .f) ready = some statusAddr) ∧
      (listsZ (.clrf 0x00) = true ∧ storeTarget (.clrf 0x00) (pointing 0x03) = some statusAddr) :=
  ⟨⟨rfl, rfl⟩, rfl, rfl⟩

/-- One entry leaves room on the low range's stack, two do not; the first and the last 9-bit `k`. -/
theorem witness_LowRangeDifferences :
    lowCore.params.range = .low ∧ paramsValid lowCore.params = true ∧
      (0x000 : ProgAddr).toNat ≤ 511 ∧ (0x1FF : ProgAddr).toNat ≤ 511 ∧
      ({ lowCore with stack := [0x001] } : State).stack.length < 2 ∧
      ({ lowCore with stack := [0x001, 0x002] } : State).stack.length = 2 := by decide

/-- The word between OPTION and TRIS, and the highest one, at the first and the last address. -/
theorem witness_LowRangeWordsAreRefused :
    let s := { lowCore with prog := [(0x000, 0x0004), (0x7FF, 0x3FFF)] }
    let t := { s with pc := 0x7FF }
    (launchRefusal s.params = none ∧ s.params.range = .low ∧ s.run = .running ∧ s.pc.toNat < s.params.progWords ∧
        progRead s.pc s = 0x0004) ∧
      (t.pc.toNat < t.params.progWords ∧ progRead t.pc t = 0x3FFF) ∧
      (∀ v : InstrWord, v = 0x0004 ∨ v = 0x3FFF → v.toNat ≠ 0x002 ∧ ¬(0x005 ≤ v.toNat ∧ v.toNat ≤ 0x007)) := by
  refine ⟨by decide, by decide, ?_⟩
  rintro v (rfl | rfl) <;> decide

/-- A word of each core; the highest `f` has a place in the mid range only. -/
theorem witness_DecodedInstructionsFitTheCore :
    decodeFor .mid 0x2FFF = .ok (.goto 0x7FF) ∧ decodeFor .low 0x0007 = .ok (.tris 7) ∧
      fileField (.incf 0x1F .f) = some 0x1F ∧ fileField (.bcf 0x7F 7) = some 0x7F := by
  and_intros <;> rfl

end Sys2Proof.Tests
end

section
/-! Proofs/State: rules for the bits of STATUS, the program counter as a number, what a Running core's boundary
without an interrupt does, and the power-on reset; and the statements of spec/10_state.md they settle. -/

namespace Sys2Proof.Machine

/-! ### STATUS (R27) -/

/-- The five flags from bit 0 up, and zeros above them. -/
theorem State.statusByte_getLsbD (s : State) (j : Nat) :
    s.statusByte.getLsbD j = [s.c, s.dc, s.z, s.nPD, s.nTO].getD j false := by
  simp only [State.statusByte, BitVec.getLsbD_append]
  match j with
  | 0 | 1 | 2 | 3 | 4 => simp
  | k + 5 => simp

theorem memRead_of_status {a : DataAddr} {s : State} (h : classOf s.params a = .status) :
    memRead a s = .ok (s.statusByte, s) := by
  simp [memRead, h]

/-- Settles O12: STATUS reads as its byte (R48), whose bits are the list of R27. -/
theorem statusBitsAreTheFlags : Obligations.StatusBitsAreTheFlags := by
  intro s
  have hbit := s.statusByte_getLsbD
  exact ⟨memRead_of_status (classOf_status.2 rfl), hbit 0, hbit 1, hbit 2, hbit 3, hbit 4, hbit 5, hbit 6, hbit 7⟩

/-! ### The program counter as a number (R17) -/

theorem State.advance_pc_toNat (s : State) : s.advance.pc.toNat = (s.pc.toNat + 1) % 2048 := by
  simp [BitVec.toNat_add]

theorem State.skipIf_true_pc_toNat (s : State) : (s.skipIf true).pc.toNat = (s.pc.toNat + 2) % 2048 := by
  simp [BitVec.toNat_add]

/-! ### The step of a Running core with no interrupt due (R149) -/

theorem fetch_beyond_program {s : State} (h : s.params.progWords ≤ s.pc.toNat) :
    fetch s = .error (.fetchOutOfRange s.pc) := by
  simp [fetch, Nat.not_lt.2 h]

theorem step_of_running {s : State} (hl : launchRefusal s.params = none) (hr : s.run = .running) :
    step s = runBoundary s := by
  simp [step, hl, hr]

/-- With no interrupt due the fetch's refusal is the step's. -/
theorem runBoundary_of_fetch_error {s : State} {r : Refusal} (hi : interruptDue s = false) (hf : fetch s = .error r) :
    runBoundary s = .refused r := by
  simp [runBoundary, hi, hf]

/-- Settles O37: the fetch is refused and so is the step; the program counter has eleven bits. -/
theorem fetchBeyondTheProgramIsRefused : Obligations.FetchBeyondTheProgramIsRefused := by
  refine ⟨fun s hl hr hi hpc => ?_, fun s => ⟨s.advance_pc_toNat, s.skipIf_true_pc_toNat⟩⟩
  calc step s
    _ = runBoundary s := step_of_running hl hr
    _ = .refused (.fetchOutOfRange s.pc) := runBoundary_of_fetch_error hi (fetch_beyond_program hpc)

/-! ### The power-on reset (R35, R165) -/

theorem resetVector_of_mid {p : Params} (h : p.range = .mid) : resetVector p = 0x000 := by
  simp [resetVector, h]

/-- The reset state is one that a power-on reset leaves as it is. -/
theorem State.powerOn_reset : State.reset.powerOn = State.reset := rfl

/-- Settles O43: field by field by the laws of `State.powerOn`; only the `pc` depends on the range. -/
theorem resetStateIsTheTable : Obligations.ResetStateIsTheTable := by
  intro s hmid
  have hpc : s.powerOn.pc = 0x000 := s.powerOn_pc.trans (resetVector_of_mid hmid)
  exact ⟨hpc, s.powerOn_run, s.powerOn_stack, s.powerOn_gie, s.powerOn_nTO, s.powerOn_nPD, s.powerOn_wdt,
    s.powerOn_wdtps, s.powerOn_w, s.powerOn_c, s.powerOn_dc, s.powerOn_z, s.powerOn_fsr, s.powerOn_data,
    State.powerOn_reset.symm⟩

end Sys2Proof.Machine
end

section
/-! Proofs/Memory: the addressing modes case by case, and what a read leaves of FSR; and the statements of
spec/20_memory.md they settle. -/

namespace Sys2Proof.Machine

/-! ### The direct and the indirect mode (R46, R47)

FSR is spoken of as the rules write it: bit 7, and the seven bits below it as `setWidth 7`. -/

theorem effectiveAddress_direct {f : DataAddr} {s : State} (hf : f ≠ indfAddr) : effectiveAddress f s = .ok f :=
  effectiveAddress_ok.2 (.inl ⟨hf, rfl⟩)

theorem effectiveAddress_banked {s : State} (hb : s.fsr.getLsbD 7 = true) :
    effectiveAddress indfAddr s = .error .bankedIndirect := by
  have hbit : s.fsr[7] = true := hb
  simp [effectiveAddress, hbit]

theorem effectiveAddress_indf_of_zero {s : State} (hb : s.fsr.getLsbD 7 = false)
    (hz : s.fsr.setWidth 7 = (0 : DataAddr)) : effectiveAddress indfAddr s = .error .indirectThroughIndf := by
  have hbit : s.fsr[7] = false := hb
  rw [BitVec.setWidth_eq_extractLsb' (by decide)] at hz
  simp [effectiveAddress, hbit, hz]

theorem effectiveAddress_indirect {s : State} (hb : s.fsr.getLsbD 7 = false)
    (hz : s.fsr.setWidth 7 ≠ (0 : DataAddr)) : effectiveAddress indfAddr s = .ok (s.fsr.setWidth 7) :=
  effectiveAddress_ok.2 (.inr ⟨rfl, hb, BitVec.setWidth_eq_extractLsb' (by decide), hz⟩)

/-- An access through FSR moves no pointer: a read changes the count of free values at most. -/
theorem memRead_fsr {a : DataAddr} {v : Byte} {s t : State} (h : memRead a s = .ok (v, t)) : t.fsr = s.fsr := by
  obtain ⟨k, rfl⟩ := memRead_state h
  rfl

/-- Settles O8: each mode by its rule, and FSR by the rule of a read. -/
theorem effectiveAddressIsDirectOrThroughFsr : Obligations.EffectiveAddressIsDirectOrThroughFsr := fun _ =>
  ⟨fun _ => effectiveAddress_direct, effectiveAddress_banked, effectiveAddress_indf_of_zero,
    effectiveAddress_indirect, fun _ _ _ => memRead_fsr⟩

end Sys2Proof.Machine
end

section
/-! Proofs/Encoding: how far the decision tree of R71 depends on a word: which words have no instruction, and which bits
it does not look at; and the statements of spec/30_encoding.md they settle. In the last branch of a `match` the patterns
passed over stand as `… → False`, which `imp_false` turns into the negations that `omega` reads. -/

namespace Sys2Proof

open Sys2Proof.Spec

/-! ### The fields of a word as numbers (R68) -/

theorem toNat_extractLsb' (w : InstrWord) (start len : Nat) :
    (w.extractLsb' start len).toNat = w.toNat / 2 ^ start % 2 ^ len := by
  rw [BitVec.extractLsb'_toNat, Nat.shiftRight_eq_div_pow]

theorem getElem_eq_true_iff (w : InstrWord) (j : Nat) (hj : j < 14) : w[j] = true ↔ w.toNat / 2 ^ j % 2 = 1 := by
  rw [BitVec.getElem_eq_testBit_toNat, Nat.testBit_eq_decide_div_mod_eq, decide_eq_true_iff]

/-! ### Reserved words (R73) -/

/-- A decoder's answer to the word `w` is as R73 has it: an instruction, or `w` is reserved and rejected by name. -/
inductive AnswersByR73 (w : InstrWord) : Except DecodeError Instr → Prop where
  | instr (i : Instr) : ¬reservedWord w → AnswersByR73 w (.ok i)
  | reserved : reservedWord w → AnswersByR73 w (.error (.illegal w))

/-- Above the no-operand group only the words of `11 1011` are reserved. -/
theorem reservedWord_iff_of_high {w : InstrWord} (h : 0x0080 ≤ w.toNat) :
    reservedWord w ↔ w.toNat / 2 ^ 8 = 0x3B := by
  unfold reservedWord
  omega

theorem decodeNoOperand_answersByR73 {w : InstrWord} (h : w.toNat < 0x0080) : AnswersByR73 w (decodeNoOperand w) := by
  unfold decodeNoOperand
  simp only [toNat_extractLsb']
  split
  case h_9 =>
    simp only [imp_false] at *
    exact .reserved (by unfold reservedWord; omega)
  all_goals exact .instr _ (by unfold reservedWord; omega)

theorem decodeByteGroup_answersByR73 {w : InstrWord} (h : w.toNat < 0x1000) : AnswersByR73 w (decodeByteGroup w) := by
  unfold decodeByteGroup
  simp only [toNat_extractLsb', getElem_eq_true_iff]
  split
  case h_15 =>
    split <;> exact .instr _ (by rw [reservedWord_iff_of_high] <;> omega)
  case h_16 =>
    split
    · exact .instr _ (by rw [reservedWord_iff_of_high] <;> omega)
    · simp only [imp_false] at *
      exact decodeNoOperand_answersByR73 (by omega)
  all_goals exact .instr _ (by rw [reservedWord_iff_of_high] <;> omega)

theorem decodeLiteralGroup_answersByR73 {w : InstrWord} (h : 0x3000 ≤ w.toNat) :
    AnswersByR73 w (decodeLiteralGroup w) := by
  have hrange := reservedWord_iff_of_high (w := w) (by omega)
  unfold decodeLiteralGroup
  simp only [toNat_extractLsb', getElem_eq_true_iff]
  split
  case h_1 | h_2 => exact .instr _ ((not_congr hrange).2 (by omega))
  case h_3 =>
    split
    case h_4 =>
      simp only [imp_false] at *
      exact .reserved (hrange.2 (by omega))
    all_goals exact .instr _ ((not_congr hrange).2 (by omega))
  case h_4 =>
    simp only [imp_false] at *
    split <;> exact .instr _ ((not_congr hrange).2 (by omega))

theorem decodeBitGroup_isOk (w : InstrWord) : ∃ i, decodeBitGroup w = .ok i := by
  unfold decodeBitGroup
  split <;> exact ⟨_, rfl⟩

theorem decodeJumpGroup_isOk (w : InstrWord) : ∃ i, decodeJumpGroup w = .ok i := by
  unfold decodeJumpGroup
  split <;> exact ⟨_, rfl⟩

/-- The decoder rejects the reserved words and no others. -/
theorem decode_answersByR73 (w : InstrWord) : AnswersByR73 w (decode w) := by
  have not_reserved : 0x1000 ≤ w.toNat → w.toNat < 0x3000 → ¬reservedWord w := by
    intro hlo hhi
    rw [reservedWord_iff_of_high (by omega)]
    omega
  unfold decode
  simp only [toNat_extractLsb']
  split
  case h_1 => exact decodeByteGroup_answersByR73 (by omega)
  case h_2 =>
    obtain ⟨i, hi⟩ := decodeBitGroup_isOk w
    exact hi ▸ .instr i (not_reserved (by omega) (by omega))
  case h_3 =>
    obtain ⟨i, hi⟩ := decodeJumpGroup_isOk w
    exact hi ▸ .instr i (not_reserved (by omega) (by omega))
  case h_4 =>
    simp only [imp_false] at *
    exact decodeLiteralGroup_answersByR73 (by omega)

/-- What an answer by R73 says of the word. -/
theorem AnswersByR73.illegal_and_ok_iff {w : InstrWord} {r : Except DecodeError Instr} (h : AnswersByR73 w r) :
    (r = .error (.illegal w) ↔ reservedWord w) ∧ ((∃ i, r = .ok i) ↔ ¬reservedWord w) := by
  cases h with
  | instr i hw => simp [hw]
  | reserved hw => simp [hw]

end Sys2Proof

namespace Sys2Proof.Machine

theorem fetch_of_illegal {s : State} {w : InstrWord} (hmid : s.params.range = .mid)
    (hpc : s.pc.toNat < s.params.progWords) (hw : decode (progRead s.pc s) = .error (.illegal w)) :
    fetch s = .error (.illegalInstruction w) := by
  simp [fetch, decodeFor, hmid, hpc, hw]

/-- Settles O4: the decoder's answer to every word is as R73 has it, and a fetch that it rejects refuses the step. -/
theorem reservedWordsAreRefused : Obligations.ReservedWordsAreRefused := by
  refine ⟨fun w => (decode_answersByR73 w).illegal_and_ok_iff, fun s hl hmid hr hi hpc hw => ?_⟩
  have hf : fetch s = .error (.illegalInstruction (progRead s.pc s)) :=
    fetch_of_illegal hmid hpc ((decode_answersByR73 _).illegal_and_ok_iff.1.2 hw)
  calc step s
    _ = runBoundary s := step_of_running hl hr
    _ = .refused (.illegalInstruction (progRead s.pc s)) := runBoundary_of_fetch_error hi hf

end Sys2Proof.Machine

namespace Sys2Proof

/-! ### Don't-care bits (R69, R74)

`w ^^^ (m &&& d)` is the word `w` with the bits that `m` selects among the positions `d` flipped. -/

theorem extractLsb'_flip {n start len : Nat} {w m d : BitVec n} (h : d.extractLsb' start len = 0#len) :
    (w ^^^ (m &&& d)).extractLsb' start len = w.extractLsb' start len := by
  rw [BitVec.extractLsb'_xor, BitVec.extractLsb'_and, h, BitVec.and_zero, BitVec.xor_zero]

theorem getElem_flip {n j : Nat} {w m d : BitVec n} (hj : j < n) (h : d.getLsbD j = false) :
    (w ^^^ (m &&& d))[j] = w[j] := by
  rw [BitVec.getElem_xor, BitVec.getElem_and, ← BitVec.getLsbD_eq_getElem (x := d), h, Bool.and_false, Bool.xor_false]

theorem row_addlw_dontCare (k : Byte) : (Instr.addlw k).row.dontCare = 0x0100#14 := rfl
theorem row_sublw_dontCare (k : Byte) : (Instr.sublw k).row.dontCare = 0x0100#14 := rfl
theorem row_movlw_dontCare (k : Byte) : (Instr.movlw k).row.dontCare = 0x0300#14 := rfl
theorem row_retlw_dontCare (k : Byte) : (Instr.retlw k).row.dontCare = 0x0300#14 := rfl

/-- An instruction without don't-care bits has none to flip, whichever decoder gives it. -/
theorem flip_of_no_dontCare {decoder : InstrWord → Except DecodeError Instr} {w m : InstrWord} {i : Instr}
    (hd : i.row.dontCare = 0) (h : decoder w = .ok i) : decoder (w ^^^ (m &&& i.row.dontCare)) = .ok i := by
  simpa [hd] using h

theorem fieldK8_flip {w m d : InstrWord} (h : d.extractLsb' 0 8 = 0#8) : fieldK8 (w ^^^ (m &&& d)) = fieldK8 w :=
  extractLsb'_flip h

/-! The branches of the tree that look past some bit of the word. -/

theorem decodeNoOperand_eq_nop {w : InstrWord} : decodeNoOperand w = .ok .nop ↔ w.extractLsb' 0 5 = 0 := by
  rw [← BitVec.toNat_inj]
  unfold decodeNoOperand
  simp only [toNat_extractLsb']
  split <;> simp
  case h_9 =>
    simp only [imp_false] at *
    omega
  all_goals omega

theorem decodeByteGroup_of_op_zero {w : InstrWord} (h : (w.extractLsb' 8 4).toNat = 0) :
    decodeByteGroup w = if w[7] then .ok (.movwf (fieldF w)) else decodeNoOperand w := by
  simp only [decodeByteGroup, h]

theorem decodeByteGroup_of_op_one {w : InstrWord} (h : (w.extractLsb' 8 4).toNat = 1) :
    decodeByteGroup w = if w[7] then .ok (.clrf (fieldF w)) else .ok .clrw := by
  simp only [decodeByteGroup, h]

theorem decodeLiteralGroup_of_op_zero {w : InstrWord} (h : (w.extractLsb' 10 2).toNat = 0) :
    decodeLiteralGroup w = .ok (.movlw (fieldK8 w)) := by
  simp only [decodeLiteralGroup, h]

theorem decodeLiteralGroup_of_op_one {w : InstrWord} (h : (w.extractLsb' 10 2).toNat = 1) :
    decodeLiteralGroup w = .ok (.retlw (fieldK8 w)) := by
  simp only [decodeLiteralGroup, h]

theorem decodeLiteralGroup_of_op_three {w : InstrWord} (h : (w.extractLsb' 10 2).toNat = 3) :
    decodeLiteralGroup w = if w[9] then .ok (.addlw (fieldK8 w)) else .ok (.sublw (fieldK8 w)) := by
  simp only [decodeLiteralGroup, h]

/-! No group of the tree sees a flip of don't-care bits. -/

theorem decodeNoOperand_dontCare {w : InstrWord} {i : Instr} (h : decodeNoOperand w = .ok i) :
    i = .nop ∨ i.row.dontCare = 0 := by
  unfold decodeNoOperand at h
  split at h <;> cases h <;> decide

theorem decodeNoOperand_flip {w m : InstrWord} {i : Instr} (h : decodeNoOperand w = .ok i) :
    decodeNoOperand (w ^^^ (m &&& i.row.dontCare)) = .ok i := by
  rcases decodeNoOperand_dontCare h with rfl | hd
  · rw [decodeNoOperand_eq_nop] at h ⊢
    rwa [extractLsb'_flip rfl]
  · exact flip_of_no_dontCare hd h

theorem decodeByteGroup_flip {w m : InstrWord} {i : Instr} (h : decodeByteGroup w = .ok i) :
    decodeByteGroup (w ^^^ (m &&& i.row.dontCare)) = .ok i := by
  have hw := h
  unfold decodeByteGroup at h
  split at h
  case h_15 hop =>
    split at h
    · cases h
      exact flip_of_no_dontCare rfl hw
    · next hb =>
      cases h
      rw [decodeByteGroup_of_op_one (by rwa [extractLsb'_flip rfl]), getElem_flip _ rfl, if_neg hb]
  case h_16 =>
    split at h
    · cases h
      exact flip_of_no_dontCare rfl hw
    · next hb =>
      rcases decodeNoOperand_dontCare h with rfl | hd
      · have hop : (w.extractLsb' 8 4).toNat = 0 := by
          simp only [imp_false] at *
          omega
        rw [decodeByteGroup_of_op_zero (by rwa [extractLsb'_flip rfl]), getElem_flip _ rfl, if_neg hb]
        exact decodeNoOperand_flip h
      · exact flip_of_no_dontCare hd hw
  all_goals
    cases h
    exact flip_of_no_dontCare rfl hw

theorem decodeLiteralGroup_flip {w m : InstrWord} {i : Instr} (h : decodeLiteralGroup w = .ok i) :
    decodeLiteralGroup (w ^^^ (m &&& i.row.dontCare)) = .ok i := by
  have hw := h
  unfold decodeLiteralGroup at h
  split at h
  case h_1 hop =>
    cases h
    rw [row_movlw_dontCare, decodeLiteralGroup_of_op_zero (by rwa [extractLsb'_flip rfl]), fieldK8_flip rfl]
  case h_2 hop =>
    cases h
    rw [row_retlw_dontCare, decodeLiteralGroup_of_op_one (by rwa [extractLsb'_flip rfl]), fieldK8_flip rfl]
  case h_3 =>
    split at h <;> cases h <;> exact flip_of_no_dontCare rfl hw
  case h_4 =>
    have hop : (w.extractLsb' 10 2).toNat = 3 := by
      simp only [imp_false] at *
      omega
    rw [decodeLiteralGroup_of_op_three hop] at hw
    split at h
    · cases h
      rwa [row_addlw_dontCare, decodeLiteralGroup_of_op_three (by rwa [extractLsb'_flip rfl]), getElem_flip _ rfl,
        fieldK8_flip rfl]
    · cases h
      rwa [row_sublw_dontCare, decodeLiteralGroup_of_op_three (by rwa [extractLsb'_flip rfl]), getElem_flip _ rfl,
        fieldK8_flip rfl]

theorem decodeBitGroup_dontCare {w : InstrWord} {i : Instr} (h : decodeBitGroup w = .ok i) : i.row.dontCare = 0 := by
  unfold decodeBitGroup at h
  split at h <;> cases h <;> rfl

theorem decodeJumpGroup_dontCare {w : InstrWord} {i : Instr} (h : decodeJumpGroup w = .ok i) :
    i.row.dontCare = 0 := by
  unfold decodeJumpGroup at h
  split at h <;> cases h <;> rfl

theorem dontCare_extractLsb'_group (i : Instr) : i.row.dontCare.extractLsb' 12 2 = 0#2 := by
  cases i <;> simp [Instr.row]

theorem decode_flip {w m : InstrWord} {i : Instr} (h : decode w = .ok i) :
    decode (w ^^^ (m &&& i.row.dontCare)) = .ok i := by
  unfold decode at h ⊢
  rw [extractLsb'_flip (dontCare_extractLsb'_group i)]
  split at h
  case h_1 => exact decodeByteGroup_flip h
  case h_2 => exact flip_of_no_dontCare (decodeBitGroup_dontCare h) h
  case h_3 => exact flip_of_no_dontCare (decodeJumpGroup_dontCare h) h
  case h_4 => exact decodeLiteralGroup_flip h

theorem encode_dontCare {i : Instr} (h : i.wellFormed = true) : encode i &&& i.row.dontCare = 0 := by
  cases i with
  | addlw k => exact (Laws.EncodesItsRow.addlw k h).2
  | sublw k => exact (Laws.EncodesItsRow.sublw k h).2
  | movlw k => exact (Laws.EncodesItsRow.movlw k h).2
  | retlw k => exact (Laws.EncodesItsRow.retlw k h).2
  | nop => exact (Laws.EncodesItsRow.nop h).2
  | clrw => exact (Laws.EncodesItsRow.clrw h).2
  | _ => exact BitVec.and_zero

/-- Settles O5: no branch of the decision tree sees a flip, the encoder writes 0, and the positions are R69's list. -/
theorem dontCareBitsDoNotMatter : Obligations.DontCareBitsDoNotMatter :=
  ⟨fun _ _ _ => decode_flip, fun _ => encode_dontCare,
    fun k => ⟨row_addlw_dontCare k, row_sublw_dontCare k, row_movlw_dontCare k, row_retlw_dontCare k⟩,
    rfl, rfl⟩

end Sys2Proof
end

section
/-! Proofs/ByteOriented: the words of the byte-oriented group, what the ALU operations give as numbers, and once for each
format how an instruction with a register operand completes and is refused; and the statements of
spec/40_byte_oriented.md they settle. -/

namespace Sys2Proof

/-! ### The words of the byte-oriented group (R62, R63) -/

/-- The bits above the field `f`: where the decision tree looks for the group, the opcode and the bit `d`. -/
theorem extractLsb'_append_group (op : BitVec 7) (f : DataAddr) :
    (op ++ f).extractLsb' 12 2 = op.extractLsb' 5 2 :=
  BitVec.extractLsb'_append_eq_of_le (by decide)

theorem extractLsb'_append_opcode (op : BitVec 7) (f : DataAddr) :
    (op ++ f).extractLsb' 8 4 = op.extractLsb' 1 4 :=
  BitVec.extractLsb'_append_eq_of_le (by decide)

theorem getElem_append_seven (op : BitVec 7) (f : DataAddr) : (op ++ f)[7] = op[0] := by
  rw [BitVec.getElem_append, dif_neg (by decide)]

theorem decode_of_byteGroup {op : BitVec 7} (f : DataAddr) (h : op.extractLsb' 5 2 = 0) :
    decode (op ++ f) = decodeByteGroup (op ++ f) := by
  simp [decode, (extractLsb'_append_group op f).trans h]

/-- A format B word decodes to what the byte group has for its four opcode bits: with these given, the branch of the tree
is the only open point, and evaluating the tree settles it where the opcode is a numeral. -/
theorem decode_formatB {op : BitVec 6} {mk : DataAddr → Dest → Instr} (hgroup : op.extractLsb' 4 2 = 0)
    (hop : ∀ w : InstrWord, w.extractLsb' 8 4 = op.extractLsb' 0 4 →
      decodeByteGroup w = .ok (mk (fieldF w) (fieldD w)) := by intro w h; simp [decodeByteGroup, h])
    (f : DataAddr) (d : Dest) : decode (op ++ d.bit ++ f) = .ok (mk f d) := by
  have hgroup' : (op ++ d.bit).extractLsb' 5 2 = 0 := (BitVec.extractLsb'_append_eq_of_le (by decide)).trans hgroup
  have hopcode : (op ++ d.bit ++ f).extractLsb' 8 4 = op.extractLsb' 0 4 :=
    (extractLsb'_append_opcode (op ++ d.bit) f).trans (BitVec.extractLsb'_append_eq_of_le (by decide))
  have hf : fieldF (op ++ d.bit ++ f) = f := fieldF_append (op ++ d.bit) f
  have hd : fieldD (op ++ d.bit ++ f) = d := by
    have hbit : (op ++ d.bit ++ f)[7] = d.bit[0] :=
      (getElem_append_seven (op ++ d.bit) f).trans (BitVec.getElem_append (by decide))
    unfold fieldD
    rw [hbit]
    cases d <;> rfl
  rw [decode_of_byteGroup f hgroup', hop _ hopcode, hf, hd]

/-! Where the opcode bits are 0 or 1, bit 7 tells two instructions apart. -/

theorem decode_clrf (f : DataAddr) : decode (0b0000011#7 ++ f) = .ok (.clrf f) := by
  rw [decode_of_byteGroup f rfl, decodeByteGroup_of_op_one (congrArg _ (extractLsb'_append_opcode _ f)),
    getElem_append_seven, fieldF_append]
  rfl

theorem decode_clrw (x : BitVec 7) : decode (0b0000010#7 ++ x) = .ok .clrw := by
  rw [decode_of_byteGroup x rfl, decodeByteGroup_of_op_one (congrArg _ (extractLsb'_append_opcode _ x)),
    getElem_append_seven]
  rfl

theorem decode_movwf (f : DataAddr) : decode (0b0000001#7 ++ f) = .ok (.movwf f) := by
  rw [decode_of_byteGroup f rfl, decodeByteGroup_of_op_zero (congrArg _ (extractLsb'_append_opcode _ f)),
    getElem_append_seven, fieldF_append]
  rfl

end Sys2Proof

namespace Sys2Proof.Machine

open Sys2Proof.Spec

/-! ### The ALU operations as numbers (R80, R81, R94, R95, R97) -/

theorem toNat_append_eq_add {n m : Nat} (a : BitVec n) (b : BitVec m) :
    (a ++ b).toNat = a.toNat * 2 ^ m + b.toNat := by
  rw [BitVec.toNat_append, ← Nat.shiftLeft_add_eq_or_of_lt b.isLt, Nat.shiftLeft_eq]

/-- The top bit as a number: for a sum with one bit to spare, the carry. -/
theorem getElem_top {n : Nat} (x : BitVec (n + 1)) : x[n] = decide (2 ^ n ≤ x.toNat) :=
  BitVec.msb_eq_decide x

theorem getElem_zero_eq_mod {n : Nat} (x : BitVec (n + 1)) : x[0] = decide (x.toNat % 2 = 1) := by
  rw [BitVec.getElem_eq_testBit_toNat, Nat.testBit_zero]

theorem add8_r (a b : Byte) : (add8 a b).r = a + b := by
  apply BitVec.eq_of_toNat_eq
  simp [add8]

theorem add8_c (a b : Byte) : (add8 a b).c = decide (256 ≤ a.toNat + b.toNat) := by
  simp only [add8, getElem_top, decide_eq_decide, BitVec.toNat_add, BitVec.toNat_setWidth]
  omega

theorem add8_dc (a b : Byte) : (add8 a b).dc = decide (16 ≤ a.toNat % 16 + b.toNat % 16) := by
  simp only [add8, getElem_top, decide_eq_decide, BitVec.toNat_add, BitVec.toNat_setWidth, BitVec.extractLsb'_toNat,
    Nat.shiftRight_zero]
  omega

theorem sub8_r (a b : Byte) : (sub8 a b).r = a - b := by
  apply BitVec.eq_of_toNat_eq
  simp only [sub8, BitVec.toNat_sub, BitVec.toNat_add, BitVec.toNat_setWidth, BitVec.toNat_not,
    BitVec.ofNat_eq_ofNat, BitVec.toNat_ofNat]
  omega

theorem sub8_c (a b : Byte) : (sub8 a b).c = decide (b.toNat ≤ a.toNat) := by
  simp only [sub8, getElem_top, decide_eq_decide, BitVec.toNat_add, BitVec.toNat_setWidth, BitVec.toNat_not,
    BitVec.ofNat_eq_ofNat, BitVec.toNat_ofNat]
  omega

theorem sub8_dc (a b : Byte) : (sub8 a b).dc = decide (b.toNat % 16 ≤ a.toNat % 16) := by
  simp only [sub8, getElem_top, decide_eq_decide, BitVec.toNat_add, BitVec.toNat_setWidth, BitVec.toNat_not,
    BitVec.ofNat_eq_ofNat, BitVec.toNat_ofNat, BitVec.extractLsb'_toNat, Nat.shiftRight_zero]
  omega

/-- The flags of a sum (R80). -/
theorem State.withFlags_add8 (t : State) (a b : Byte) :
    t.withFlags (.arith (add8 a b)) = { t with
      c := decide (256 ≤ a.toNat + b.toNat), dc := decide (16 ≤ a.toNat % 16 + b.toNat % 16),
      z := decide (a + b = 0) } := by
  rw [← add8_r, ← add8_c, ← add8_dc]
  rfl

/-- The flags of a difference (R81). -/
theorem State.withFlags_sub8 (t : State) (a b : Byte) :
    t.withFlags (.arith (sub8 a b)) = { t with
      c := decide (b.toNat ≤ a.toNat), dc := decide (b.toNat % 16 ≤ a.toNat % 16), z := decide (a - b = 0) } := by
  rw [← sub8_r, ← sub8_c, ← sub8_dc]
  rfl

theorem rotateLeft_value (c : Bool) (v : Byte) : (rotateLeft c v).value = .ofNat 8 (2 * v.toNat + c.toNat) := by
  apply BitVec.eq_of_toNat_eq
  have hc := c.toNat_lt
  simp only [rotateLeft, AluResult.rotated, toNat_append_eq_add, BitVec.extractLsb'_toNat, BitVec.toNat_ofBool,
    BitVec.toNat_ofNat, Nat.shiftRight_zero]
  omega

theorem State.withFlags_rotateLeft (t : State) (c : Bool) (v : Byte) :
    t.withFlags (rotateLeft c v) = { t with c := decide (128 ≤ v.toNat) } :=
  congrArg (fun x => { t with c := x }) (getElem_top v)

theorem rotateRight_value (c : Bool) (v : Byte) :
    (rotateRight c v).value = .ofNat 8 (v.toNat / 2 + 128 * c.toNat) := by
  apply BitVec.eq_of_toNat_eq
  have hc := c.toNat_lt
  simp only [rotateRight, AluResult.rotated, toNat_append_eq_add, BitVec.extractLsb'_toNat, BitVec.toNat_ofBool,
    BitVec.toNat_ofNat, Nat.shiftRight_eq_div_pow]
  omega

theorem State.withFlags_rotateRight (t : State) (c : Bool) (v : Byte) :
    t.withFlags (rotateRight c v) = { t with c := decide (v.toNat % 2 = 1) } :=
  congrArg (fun x => { t with c := x }) (getElem_zero_eq_mod v)

theorem swapNibbles_eq (v : Byte) : swapNibbles v = .ofNat 8 (16 * (v.toNat % 16) + v.toNat / 16) := by
  apply BitVec.eq_of_toNat_eq
  have hhigh : v.toNat / 16 < 16 := by omega
  simp only [swapNibbles, toNat_append_eq_add, BitVec.extractLsb'_toNat, BitVec.toNat_ofNat,
    Nat.shiftRight_eq_div_pow, Nat.reducePow, Nat.div_one, Nat.mod_eq_of_lt hhigh]
  omega

/-! ### Reads and writes leave `pc`, and the instruction ends at the next one (R16) -/

theorem memRead_pc {a : DataAddr} {v : Byte} {s t : State} (h : memRead a s = .ok (v, t)) : t.pc = s.pc := by
  obtain ⟨k, rfl⟩ := memRead_state h
  rfl

theorem memWrite_pc {a : DataAddr} {v : Byte} {s t : State} (h : memWrite a v s = .ok t) : t.pc = s.pc := by
  obtain ⟨_, _, _, _, _, _, _, rfl⟩ := (memWrite_frame h).eq
  rfl

theorem State.advance_of_pc {s t : State} (h : t.pc = s.pc) : t.advance = { t with pc := s.pc + 1 } := by
  rw [State.advance, h]

/-! ### How an instruction with a register operand is refused (R82, R83, R146) -/

section Refusals

variable {b : Bool} {op : Byte → AluResult} {x : AluResult} {f a : DataAddr} {d : Dest} {s t : State} {v : Byte}
  {r : Refusal}

theorem storeAddress_of_error (h : effectiveAddress f s = .error r) : storeAddress b f s = .error r := by
  simp [storeAddress, h]

theorem storeAddress_of_collision (h : effectiveAddress f s = .ok statusAddr) :
    storeAddress true f s = .error .statusDestCollision := by
  simp [storeAddress, h]

theorem operandAddress_of_error (h : effectiveAddress f s = .error r) : operandAddress b f d s = .error r := by
  cases d with
  | w => exact h
  | f => exact storeAddress_of_error h

/-- STATUS can be read, so where a read is refused there is no collision before it. -/
theorem ne_status_of_memRead_error (h : memRead a s = .error r) : a ≠ statusAddr := by
  rintro rfl
  rw [memRead_of_status (classOf_status.2 rfl)] at h
  cases h

theorem fileOp_of_address_error (h : operandAddress b f d s = .error r) : fileOp b op f d s = .error r := by
  simp [fileOp, h]

theorem fileOp_of_read_error (ha : effectiveAddress f s = .ok a) (h : memRead a s = .error r) :
    fileOp b op f d s = .error r := by
  have hop : operandAddress b f d s = .ok a := operandAddress_ok.2 ⟨ha, fun _ _ => ne_status_of_memRead_error h⟩
  simp [fileOp, hop, h]

theorem fileOp_of_write_error (hop : operandAddress b f .f s = .ok a) (hr : memRead a s = .ok (v, t))
    (h : memWrite a (op v).value t = .error r) : fileOp b op f .f s = .error r := by
  simp [fileOp, hop, hr, writeDest, h]

theorem fileStore_of_address_error (h : storeAddress b f s = .error r) : fileStore b x f s = .error r := by
  simp [fileStore, h]

theorem fileStore_of_write_error (ha : storeAddress b f s = .ok a) (h : memWrite a x.value s = .error r) :
    fileStore b x f s = .error r := by
  simp [fileStore, ha, h]

end Refusals

/-! ### Format B: an instruction made of `fileOp` is what the spec says of its format (R82, R83) -/

/-- An instruction that runs `fileOp` and then only moves `pc` has the shape `FormatB`: what is left for each is its word,
the value and the flags of its operation, and where it goes on. -/
theorem formatB_of_fileOp {mk : DataAddr → Dest → Instr} {op : BitVec 6} {b : Bool} {value : State → Byte → Byte}
    {flags : State → Byte → State → State} {pcAfter : State → Byte → ProgAddr} {alu : State → Byte → AluResult}
    {finish : Byte × State → State} (hword : ∀ f d, decode (op ++ d.bit ++ f) = .ok (mk f d))
    (hexec : ∀ f d s, exec (mk f d) s = settle (fileOp b (alu s) f d s >>= fun x => pure (finish x)))
    (hvalue : ∀ s v, (alu s v).value = value s v)
    (hfinish : ∀ s v u, u.pc = s.pc →
      finish (value s v, u.withFlags (alu s v)) = { flags s v u with pc := pcAfter s v }) :
    FormatB mk op b value flags pcAfter := by
  have completes : ∀ {s t u : State} {f a : DataAddr} {d : Dest} {v : Byte}, operandAddress b f d s = .ok a →
      memRead a s = .ok (v, t) → writeDest d a (value s v) t = .ok u → u.pc = s.pc →
      exec (mk f d) s = .next { flags s v u with pc := pcAfter s v } := by
    intro s t u f a d v ha hr hw hpc
    have hop : fileOp b (alu s) f d s = .ok (value s v, u.withFlags (alu s v)) :=
      fileOp_ok.2 ⟨a, v, t, u, ha, hr, by rwa [hvalue], (hvalue s v).symm, rfl⟩
    rw [hexec, hop, ok_bind, hfinish s v u hpc, pure_eq_ok, settle_ok]
  have refuses : ∀ {s : State} {f : DataAddr} {d : Dest} {r : Refusal}, fileOp b (alu s) f d s = .error r →
      exec (mk f d) s = .refused r := by
    intro s f d r h
    rw [hexec, h, error_bind, settle_error]
  refine ⟨hword, ?toW, ?toF, ?addressRefused, ?readRefused, ?collision, ?writeRefused⟩
  case toW =>
    exact fun s t f a v ha hr =>
      completes (operandAddress_ok.2 ⟨ha, nofun⟩) hr rfl (show t.pc = s.pc from memRead_pc hr)
  case toF =>
    exact fun s t u f a v ha hr hne hw =>
      completes (operandAddress_ok.2 ⟨ha, fun hb _ => hne hb⟩) hr hw ((memWrite_pc hw).trans (memRead_pc hr))
  case addressRefused => exact fun s f d r h => refuses (fileOp_of_address_error (operandAddress_of_error h))
  case readRefused => exact fun s f a d r ha h => refuses (fileOp_of_read_error ha h)
  case collision =>
    rintro rfl s f h
    exact refuses (fileOp_of_address_error (storeAddress_of_collision h))
  case writeRefused =>
    rintro rfl s t f a v r ha hr h
    exact refuses (fileOp_of_write_error (operandAddress_ok.2 ⟨ha, nofun⟩) hr (by rwa [hvalue]))

/-- The same for an instruction that goes on at the next one: its operation's value and flags are what is left. -/
theorem formatB_of_fileStep {mk : DataAddr → Dest → Instr} {op : BitVec 6} {b : Bool} {value : State → Byte → Byte}
    {flags : State → Byte → State → State} {alu : State → Byte → AluResult}
    (hword : ∀ f d, decode (op ++ d.bit ++ f) = .ok (mk f d))
    (hexec : ∀ f d s, exec (mk f d) s = settle (fileStep b (alu s) f d s))
    (hvalue : ∀ s v, (alu s v).value = value s v)
    (hflags : ∀ s v t, t.withFlags (alu s v) = flags s v t) : FormatB mk op b value flags sequential :=
  formatB_of_fileOp (finish := fun x => x.2.advance) hword hexec hvalue fun s v u hpc => by
    rw [← hflags]
    exact State.advance_of_pc hpc

/-! ### Format F: the register is written and not read (R86, R93) -/

/-- An instruction that runs `fileStore` has the shape `FormatF`: its word and its flags are what is left. -/
theorem formatF_of_fileStore {mk : DataAddr → Instr} {op : BitVec 7} {b : Bool} {flags : State → State}
    {alu : State → AluResult} (hword : ∀ f, decode (op ++ f) = .ok (mk f))
    (hexec : ∀ f s, exec (mk f) s = settle (fileStore b (alu s) f s))
    (hflags : ∀ s t, t.withFlags (alu s) = flags t) : FormatF mk op b (fun s => (alu s).value) flags := by
  have refuses : ∀ {s : State} {f : DataAddr} {r : Refusal}, fileStore b (alu s) f s = .error r →
      exec (mk f) s = .refused r := by
    intro s f r h
    rw [hexec, h, settle_error]
  refine ⟨hword, ?completes, ?addressRefused, ?writeRefused, ?collision⟩
  case completes =>
    intro s u f a ha hne hw
    have hpc : (u.withFlags (alu s)).pc = s.pc := (State.withFlags_pc u _).trans (memWrite_pc hw)
    rw [hexec, fileStore_ok.2 ⟨a, u, storeAddress_ok.2 ⟨ha, hne⟩, hw, rfl⟩, settle_ok, State.advance_of_pc hpc, hflags]
  case addressRefused => exact fun s f r h => refuses (fileStore_of_address_error (storeAddress_of_error h))
  case writeRefused =>
    exact fun s f a r ha hne h => refuses (fileStore_of_write_error (storeAddress_ok.2 ⟨ha, hne⟩) h)
  case collision =>
    rintro rfl s f h
    exact refuses (fileStore_of_address_error (storeAddress_of_collision h))

/-! ### The statements -/

/-- A format B instruction that assigns Z alone (R22): its word is left, and the value its operation gives. -/
theorem formatB_of_testZ {mk : DataAddr → Dest → Instr} {op : BitVec 6} {value : State → Byte → Byte}
    (hword : ∀ f d, decode (op ++ d.bit ++ f) = .ok (mk f d))
    (hexec : ∀ f d s, exec (mk f d) s = settle (fileStep true (fun v => .testZ (value s v)) f d s)) :
    FormatB mk op true value (zOf value) sequential :=
  formatB_of_fileStep hword hexec (fun _ _ => rfl) fun _ _ _ => rfl

/-- Settles O13: the sum and its carries are those of `add8`. -/
theorem addwfAddsWAndTheRegister : Obligations.AddwfAddsWAndTheRegister :=
  formatB_of_fileStep (decode_formatB rfl) (fun _ _ _ => rfl) (fun s v => add8_r s.w v)
    fun s v t => t.withFlags_add8 s.w v

/-- Settles O14: the difference and its carries are those of `sub8`. -/
theorem subwfSubtractsWFromTheRegister : Obligations.SubwfSubtractsWFromTheRegister :=
  formatB_of_fileStep (decode_formatB rfl) (fun _ _ _ => rfl) (fun s v => sub8_r v s.w)
    fun s v t => t.withFlags_sub8 v s.w

/-- Settles O17: each rotation by its value and the bit that leaves into C. -/
theorem rotatesGoThroughCarry : Obligations.RotatesGoThroughCarry :=
  ⟨formatB_of_fileStep (decode_formatB rfl) (fun _ _ _ => rfl) (fun s v => rotateLeft_value s.c v)
      fun s v t => t.withFlags_rotateLeft s.c v,
    formatB_of_fileStep (decode_formatB rfl) (fun _ _ _ => rfl) (fun s v => rotateRight_value s.c v)
      fun s v t => t.withFlags_rotateRight s.c v⟩

/-- Settles O18: the value by `swapNibbles_eq`; an operation without flags leaves the state as the write left it. -/
theorem swapfExchangesTheNibbles : Obligations.SwapfExchangesTheNibbles :=
  formatB_of_fileStep (decode_formatB rfl) (fun _ _ _ => rfl) (fun _ v => swapNibbles_eq v) fun _ _ _ => rfl

/-- Settles O15: the three operations differ in their word and their value only. -/
theorem logicOfWAndTheRegister : Obligations.LogicOfWAndTheRegister :=
  ⟨formatB_of_testZ (decode_formatB rfl) fun _ _ _ => rfl,
    formatB_of_testZ (decode_formatB rfl) fun _ _ _ => rfl,
    formatB_of_testZ (decode_formatB rfl) fun _ _ _ => rfl⟩

/-- Settles O16: these too differ in their word and their value only. -/
theorem oneOperandFileInstructions : Obligations.OneOperandFileInstructions :=
  ⟨formatB_of_testZ (decode_formatB rfl) fun _ _ _ => rfl,
    formatB_of_testZ (decode_formatB rfl) fun _ _ _ => rfl,
    formatB_of_testZ (decode_formatB rfl) fun _ _ _ => rfl,
    formatB_of_testZ (decode_formatB rfl) fun _ _ _ => rfl⟩

/-- Settles O19: Z of the constant 0 is 1, and MOVWF assigns nothing. -/
theorem clrfAndMovwfStore : Obligations.ClrfAndMovwfStore :=
  ⟨formatF_of_fileStore decode_clrf (alu := fun _ => .testZ 0) (fun _ _ => rfl) fun _ _ => rfl,
    formatF_of_fileStore decode_movwf (alu := fun s => .plain s.w) (fun _ _ => rfl) fun _ _ => rfl⟩

/-- Settles O21: CLRW touches no register of the data area, so its next state is the definition's. -/
theorem clrwClearsWAndSetsZ : Obligations.ClrwClearsWAndSetsZ :=
  ⟨decode_clrw, fun _ => rfl⟩

end Sys2Proof.Machine
end

section
/-! Proofs/BitOriented: the words of the bit-oriented group, a byte with one bit changed, and once for both instructions
how a bit change completes and is refused; and the statement of spec/41_bit_oriented.md it settles. -/

namespace Sys2Proof

/-! ### The words of the bit-oriented group (R64) -/

theorem fieldB_append (op : BitVec 4) (b : BitNum) (f : DataAddr) : fieldB (op ++ b ++ f) = b :=
  calc (op ++ b ++ f).extractLsb' 7 3
    _ = (op ++ b).extractLsb' 0 3 := BitVec.extractLsb'_append_eq_of_le (by decide)
    _ = b := BitVec.extractLsb'_append_eq_right

/-- A format T word decodes to what its group has for the two bits under the group's own. -/
theorem decode_formatT {op : BitVec 4} {mk : DataAddr → BitNum → Instr} (hgroup : op.extractLsb' 2 2 = 1)
    (hop : ∀ w : InstrWord, w.extractLsb' 10 2 = op.extractLsb' 0 2 →
      decodeBitGroup w = .ok (mk (fieldF w) (fieldB w)))
    (f : DataAddr) (b : BitNum) : decode (op ++ b ++ f) = .ok (mk f b) := by
  have hgroup' : (op ++ b ++ f).extractLsb' 12 2 = 1 :=
    calc (op ++ b ++ f).extractLsb' 12 2
      _ = (op ++ b).extractLsb' 5 2 := extractLsb'_append_group (op ++ b) f
      _ = op.extractLsb' 2 2 := BitVec.extractLsb'_append_eq_of_le (by decide)
      _ = 1 := hgroup
  have hopcode : (op ++ b ++ f).extractLsb' 10 2 = op.extractLsb' 0 2 :=
    calc (op ++ b ++ f).extractLsb' 10 2
      _ = (op ++ b).extractLsb' 3 2 := BitVec.extractLsb'_append_eq_of_le (by decide)
      _ = op.extractLsb' 0 2 := BitVec.extractLsb'_append_eq_of_le (by decide)
  have hf : fieldF (op ++ b ++ f) = f := fieldF_append (op ++ b) f
  calc decode (op ++ b ++ f)
    _ = decodeBitGroup (op ++ b ++ f) := by simp [decode, hgroup']
    _ = .ok (mk f b) := by rw [hop _ hopcode, hf, fieldB_append]

theorem decode_bcf : ∀ (f : DataAddr) (b : BitNum), decode (0b0100#4 ++ b ++ f) = .ok (.bcf f b) :=
  decode_formatT rfl fun w h => by simp [decodeBitGroup, h]

theorem decode_bsf : ∀ (f : DataAddr) (b : BitNum), decode (0b0101#4 ++ b ++ f) = .ok (.bsf f b) :=
  decode_formatT rfl fun w h => by simp [decodeBitGroup, h]

end Sys2Proof

namespace Sys2Proof.Machine

open Sys2Proof.Spec

/-! ### A byte with one bit changed (R101, R102)

`putBit b x` is BCF's operation for `x = false` and BSF's for `x = true`. -/

/-- The mask `1 << b` has bit `b` and no other. -/
theorem getLsbD_bitMask (b : BitNum) (j : Nat) : (1#8 <<< b.toNat).getLsbD j = decide (j = b.toNat) := by
  have hb : b.toNat < 8 := b.isLt
  calc (BitVec.twoPow 8 b.toNat).getLsbD j
    _ = (decide (b.toNat < 8) && decide (b.toNat = j)) := BitVec.getLsbD_twoPow b.toNat j
    _ = decide (j = b.toNat) := by simp [hb, eq_comm]

theorem getLsbD_setBit (b : BitNum) (v : Byte) (j : Nat) :
    (setBit b v).getLsbD j = if j = b.toNat then true else v.getLsbD j := by
  rw [setBit, BitVec.getLsbD_or, getLsbD_bitMask]
  split <;> simp [*]

theorem getLsbD_clearBit (b : BitNum) (v : Byte) {j : Nat} (hj : j < 8) :
    (clearBit b v).getLsbD j = if j = b.toNat then false else v.getLsbD j := by
  rw [clearBit, BitVec.getLsbD_and, BitVec.getLsbD_not, getLsbD_bitMask]
  split <;> simp [*]

theorem getLsbD_putBit (b : BitNum) (x : Bool) (v : Byte) {j : Nat} (hj : j < 8) :
    (putBit b x v).getLsbD j = if j = b.toNat then x else v.getLsbD j := by
  cases x with
  | false => exact getLsbD_clearBit b v hj
  | true => exact getLsbD_setBit b v j

/-- The eight bits fix the byte. -/
theorem eq_putBit {b : BitNum} {x : Bool} {v v' : Byte}
    (h : ∀ j < 8, v'.getLsbD j = if j = b.toNat then x else v.getLsbD j) : v' = putBit b x v :=
  BitVec.eq_of_getLsbD_eq fun j hj => (h j hj).trans (getLsbD_putBit b x v hj).symm

/-! ### How a bit change is refused (R52, R146) -/

section Refusals

variable {g : Byte → Byte} {f a : DataAddr} {s t : State} {v : Byte} {r : Refusal}

theorem bitStep_of_address_error (h : effectiveAddress f s = .error r) : bitStep g f s = .error r := by
  simp [bitStep, h]

theorem bitStep_of_read_error (ha : effectiveAddress f s = .ok a) (h : memRead a s = .error r) :
    bitStep g f s = .error r := by
  simp [bitStep, ha, h]

theorem bitStep_of_write_error (ha : effectiveAddress f s = .ok a) (hr : memRead a s = .ok (v, t))
    (h : memWrite a (g v) t = .error r) : bitStep g f s = .error r := by
  simp [bitStep, ha, hr, h]

end Refusals

/-! ### Format T: an instruction that puts `x` at bit `b` is what the spec says of BCF and BSF (R64, R100) -/

/-- An instruction that runs `bitStep` with `putBit` has the shape `BitChange`: its word is what is left for each. -/
theorem bitChange_of_bitStep {mk : DataAddr → BitNum → Instr} {op : BitVec 4} {x : Bool}
    (hword : ∀ f b, decode (op ++ b ++ f) = .ok (mk f b))
    (hexec : ∀ f b s, exec (mk f b) s = settle (bitStep (putBit b x) f s)) : BitChange mk op x := by
  have refuses : ∀ {s : State} {f : DataAddr} {b : BitNum} {r : Refusal}, bitStep (putBit b x) f s = .error r →
      exec (mk f b) s = .refused r := by
    intro s f b r h
    rw [hexec, h, settle_error]
  refine ⟨hword, ?completes, ?writeRefused, ?addressRefused, ?readRefused⟩
  case completes =>
    intro s t u f a b v v' ha hr hbits hw
    have hpc : u.pc = s.pc := (memWrite_pc hw).trans (memRead_pc hr)
    rw [eq_putBit hbits] at hw
    rw [hexec, bitStep_ok.2 ⟨a, v, t, u, ha, hr, hw, rfl⟩, settle_ok, State.advance_of_pc hpc]
  case writeRefused =>
    intro s t f a b v v' r ha hr hbits hw
    rw [eq_putBit hbits] at hw
    exact refuses (bitStep_of_write_error ha hr hw)
  case addressRefused => exact fun s f b r h => refuses (bitStep_of_address_error h)
  case readRefused => exact fun s f a b r ha h => refuses (bitStep_of_read_error ha h)

/-- Settles O23: the two instructions differ in their word and the bit they put. -/
theorem bitClearAndBitSet : Obligations.BitClearAndBitSet :=
  ⟨bitChange_of_bitStep decode_bcf fun _ _ _ => rfl, bitChange_of_bitStep decode_bsf fun _ _ _ => rfl⟩

end Sys2Proof.Machine
end

section
/-! Proofs/Literal: the words of the literal group, with and without don't-care bits, and the whole next state of the
operations of W and a literal; and the statements of spec/42_literal.md they settle. -/

namespace Sys2Proof

/-! ### The words of the literal group (R65, R69)

`op` is the six bits above the field `k`: the group, the two bits the tree looks at first, and two bits that are the
rest of the opcode or don't-care. -/

theorem decode_of_literalGroup {op : BitVec 6} (k : Byte) (h : op.extractLsb' 4 2 = 3) :
    decode (op ++ k) = decodeLiteralGroup (op ++ k) := by
  have hgroup : (op ++ k).extractLsb' 12 2 = 3 := (BitVec.extractLsb'_append_eq_of_le (by decide)).trans h
  simp [decode, hgroup]

theorem extractLsb'_append_literalOp (op : BitVec 6) (k : Byte) :
    (op ++ k).extractLsb' 10 2 = op.extractLsb' 2 2 :=
  BitVec.extractLsb'_append_eq_of_le (by decide)

theorem getElem_append_nine (op : BitVec 6) (k : Byte) : (op ++ k)[9] = op[1] := by
  rw [BitVec.getElem_append, dif_neg (by decide)]

/-- A word without don't-care bits decodes to what the literal group has for its four opcode bits: with these given,
evaluating the tree settles it where the opcode is a numeral. -/
theorem decode_formatL {op : BitVec 6} {mk : Byte → Instr} (hgroup : op.extractLsb' 4 2 = 3)
    (hop : ∀ w : InstrWord, w.extractLsb' 10 2 = op.extractLsb' 2 2 → w.extractLsb' 8 2 = op.extractLsb' 0 2 →
      decodeLiteralGroup w = .ok (mk (fieldK8 w)) := by intro w hi lo; simp [decodeLiteralGroup, hi, lo])
    (k : Byte) : decode (op ++ k) = .ok (mk k) := by
  have hlow : (op ++ k).extractLsb' 8 2 = op.extractLsb' 0 2 := BitVec.extractLsb'_append_eq_of_le (by decide)
  rw [decode_of_literalGroup k hgroup, hop _ (extractLsb'_append_literalOp op k) hlow, fieldK8_append]

/-! Where bits of the opcode are don't-care, the branch is settled by the bits above them. -/

theorem decode_movlw (x : BitVec 2) (k : Byte) : decode (0b1100#4 ++ x ++ k) = .ok (.movlw k) := by
  have hgroup : (0b1100#4 ++ x).extractLsb' 4 2 = 3 := BitVec.extractLsb'_append_eq_of_le (by decide)
  have hop : (0b1100#4 ++ x).extractLsb' 2 2 = 0 := BitVec.extractLsb'_append_eq_of_le (by decide)
  rw [decode_of_literalGroup k hgroup,
    decodeLiteralGroup_of_op_zero (congrArg _ ((extractLsb'_append_literalOp _ k).trans hop)), fieldK8_append]

/-- With bits 11 and 10 both 1, bit 9 tells ADDLW and SUBLW apart and bit 8 is not looked at. -/
theorem decode_of_op_three {op : BitVec 5} (x : BitVec 1) (k : Byte) (hgroup : op.extractLsb' 3 2 = 3)
    (hop : op.extractLsb' 1 2 = 3) :
    decode (op ++ x ++ k) = if op[0] then .ok (.addlw k) else .ok (.sublw k) := by
  have hgroup' : (op ++ x).extractLsb' 4 2 = 3 := (BitVec.extractLsb'_append_eq_of_le (by decide)).trans hgroup
  have hop' : (op ++ x).extractLsb' 2 2 = 3 := (BitVec.extractLsb'_append_eq_of_le (by decide)).trans hop
  have hbit : (op ++ x)[1] = op[0] := by rw [BitVec.getElem_append, dif_neg (by decide)]
  rw [decode_of_literalGroup k hgroup',
    decodeLiteralGroup_of_op_three (congrArg _ ((extractLsb'_append_literalOp _ k).trans hop')),
    getElem_append_nine, hbit, fieldK8_append]

theorem decode_addlw (x : BitVec 1) (k : Byte) : decode (0b11111#5 ++ x ++ k) = .ok (.addlw k) :=
  decode_of_op_three x k rfl rfl

theorem decode_sublw (x : BitVec 1) (k : Byte) : decode (0b11110#5 ++ x ++ k) = .ok (.sublw k) :=
  decode_of_op_three x k rfl rfl

end Sys2Proof

namespace Sys2Proof.Machine

/-! ### The next state of an operation of W and a literal -/

/-- The sum of R80 goes to W, its carries and zero test to the flags. -/
theorem literalStep_add8 (a b : Byte) (s : State) :
    literalStep (.arith (add8 a b)) s = { s with
      w := a + b, c := decide (256 ≤ a.toNat + b.toNat), dc := decide (16 ≤ a.toNat % 16 + b.toNat % 16),
      z := decide (a + b = 0), pc := s.pc + 1 } :=
  calc literalStep (.arith (add8 a b)) s
    _ = { s.withFlags (.arith (add8 a b)) with w := (add8 a b).r, pc := s.pc + 1 } := rfl
    _ = _ := by rw [State.withFlags_add8, add8_r]

/-- The difference of R81 likewise. -/
theorem literalStep_sub8 (a b : Byte) (s : State) :
    literalStep (.arith (sub8 a b)) s = { s with
      w := a - b, c := decide (b.toNat ≤ a.toNat), dc := decide (b.toNat % 16 ≤ a.toNat % 16),
      z := decide (a - b = 0), pc := s.pc + 1 } :=
  calc literalStep (.arith (sub8 a b)) s
    _ = { s.withFlags (.arith (sub8 a b)) with w := (sub8 a b).r, pc := s.pc + 1 } := rfl
    _ = _ := by rw [State.withFlags_sub8, sub8_r]

theorem literalStep_testZ (r : Byte) (s : State) :
    literalStep (.testZ r) s = { s with w := r, z := decide (r = 0), pc := s.pc + 1 } := rfl

theorem literalStep_plain (r : Byte) (s : State) : literalStep (.plain r) s = { s with w := r, pc := s.pc + 1 } := rfl

theorem exec_addlw (k : Byte) (s : State) : exec (.addlw k) s = .next (literalStep (.arith (add8 s.w k)) s) := rfl
theorem exec_andlw (k : Byte) (s : State) : exec (.andlw k) s = .next (literalStep (.testZ (s.w &&& k)) s) := rfl
theorem exec_iorlw (k : Byte) (s : State) : exec (.iorlw k) s = .next (literalStep (.testZ (s.w ||| k)) s) := rfl
theorem exec_movlw (k : Byte) (s : State) : exec (.movlw k) s = .next (literalStep (.plain k) s) := rfl
theorem exec_sublw (k : Byte) (s : State) : exec (.sublw k) s = .next (literalStep (.arith (sub8 k s.w)) s) := rfl
theorem exec_xorlw (k : Byte) (s : State) : exec (.xorlw k) s = .next (literalStep (.testZ (s.w ^^^ k)) s) := rfl

/-! ### The statements -/

/-- Settles O25: each word by its bit 9, each next state by the numbers of the sum or of the difference. -/
theorem addlwAndSublwResults : Obligations.AddlwAndSublwResults := fun s k x =>
  ⟨decode_addlw x k, (exec_addlw k s).trans (congrArg _ (literalStep_add8 s.w k s)),
    decode_sublw x k, (exec_sublw k s).trans (congrArg _ (literalStep_sub8 k s.w s))⟩

/-- Settles O26: the three operations that assign Z alone, and MOVLW that assigns no flag. -/
theorem logicAndMoveLiteralResults : Obligations.LogicAndMoveLiteralResults := fun s k x =>
  ⟨decode_formatL rfl (k := k), decode_formatL rfl (k := k), decode_formatL rfl (k := k), decode_movlw x k,
    (exec_andlw k s).trans (congrArg _ (literalStep_testZ _ s)),
    (exec_iorlw k s).trans (congrArg _ (literalStep_testZ _ s)),
    (exec_xorlw k s).trans (congrArg _ (literalStep_testZ _ s)),
    (exec_movlw k s).trans (congrArg _ (literalStep_plain k s))⟩

end Sys2Proof.Machine
end

section
/-! Proofs/Control: the words of the skips, jumps, calls and returns, their cycles, how a skip, a push and a pop answer and
are refused; and the statements of spec/43_skip_and_branch.md they settle. -/

namespace Sys2Proof

/-! ### The words of the skips, jumps, calls and returns (R64 to R67) -/

theorem decode_btfsc : ∀ (f : DataAddr) (b : BitNum), decode (0b0110#4 ++ b ++ f) = .ok (.btfsc f b) :=
  decode_formatT rfl fun w h => by simp [decodeBitGroup, h]

theorem decode_btfss : ∀ (f : DataAddr) (b : BitNum), decode (0b0111#4 ++ b ++ f) = .ok (.btfss f b) :=
  decode_formatT rfl fun w h => by simp [decodeBitGroup, h]

/-- A format J word: the bit above the field `k` tells GOTO and CALL apart. -/
theorem decode_formatJ {op : BitVec 3} (k : ProgAddr) (hgroup : op.extractLsb' 1 2 = 2) :
    decode (op ++ k) = if op[0] then .ok (.goto k) else .ok (.call k) := by
  have hgroup' : (op ++ k).extractLsb' 12 2 = 2 := (BitVec.extractLsb'_append_eq_of_le (by decide)).trans hgroup
  have hbit : (op ++ k)[11] = op[0] := by rw [BitVec.getElem_append, dif_neg (by decide)]
  calc decode (op ++ k)
    _ = decodeJumpGroup (op ++ k) := by simp [decode, hgroup']
    _ = if op[0] then .ok (.goto k) else .ok (.call k) := by rw [decodeJumpGroup, hbit, fieldK11_append]

theorem decode_goto (k : ProgAddr) : decode (0b101#3 ++ k) = .ok (.goto k) := decode_formatJ k rfl

theorem decode_call (k : ProgAddr) : decode (0b100#3 ++ k) = .ok (.call k) := decode_formatJ k rfl

theorem decode_retlw (x : BitVec 2) (k : Byte) : decode (0b1101#4 ++ x ++ k) = .ok (.retlw k) := by
  have hgroup : (0b1101#4 ++ x).extractLsb' 4 2 = 3 := BitVec.extractLsb'_append_eq_of_le (by decide)
  have hop : (0b1101#4 ++ x).extractLsb' 2 2 = 1 := BitVec.extractLsb'_append_eq_of_le (by decide)
  rw [decode_of_literalGroup k hgroup,
    decodeLiteralGroup_of_op_one (congrArg _ ((extractLsb'_append_literalOp _ k).trans hop)), fieldK8_append]

end Sys2Proof

namespace Sys2Proof.Machine

open Sys2Proof.Spec

/-! ### Cycles (R172) -/

theorem cycles_of_isTransfer {i : Instr} (h : isTransfer i = true) (s t : State) : cycles i s t = some 2 := by
  cases i with
  | call | goto | retfie | retlw | ret => rfl
  | _ => cases h

theorem cycles_of_isSkip {i : Instr} (h : isSkip i = true) (s t : State) :
    cycles i s t = some (if t.pc = s.pc + 2 then 2 else 1) := by
  cases i with
  | btfsc | btfss | decfsz | incfsz => rfl
  | _ => cases h

theorem cycles_of_skip_taken {i : Instr} {s t : State} (h : isSkip i = true) (hpc : t.pc = s.pc + 2) :
    cycles i s t = some 2 := by
  rw [cycles_of_isSkip h, if_pos hpc]

/-- Modulo 2048 the next address and the one after it differ. -/
theorem cycles_of_skip_not_taken {i : Instr} {s t : State} (h : isSkip i = true) (hpc : t.pc = s.pc + 1) :
    cycles i s t = some 1 := by
  have hne : t.pc ≠ s.pc + 2 := by
    rw [hpc, Ne, BitVec.add_right_inj]
    decide
  rw [cycles_of_isSkip h, if_neg hne]

/-! ### Skips (R115) -/

/-- A skip after a state that still has the instruction's `pc`, its condition as a proposition. -/
theorem State.skipIf_of_pc {s t : State} {taken : Bool} {p : Prop} [Decidable p] (hpc : t.pc = s.pc)
    (htaken : taken = true ↔ p) : t.skipIf taken = { t with pc := if p then s.pc + 2 else s.pc + 1 } := by
  simp only [State.skipIf, htaken, hpc]

/-- An instruction that runs `fileSkip` has the shape `FormatB` without flags: what is left for each is its word and the
operand whose value is zero. -/
theorem formatB_of_fileSkip {mk : DataAddr → Dest → Instr} {op : BitVec 6} {value : Byte → Byte} {zeroAt : Byte}
    (hword : ∀ f d, decode (op ++ d.bit ++ f) = .ok (mk f d))
    (hexec : ∀ f d s, exec (mk f d) s = settle (fileSkip value f d s))
    (hzero : ∀ v, value v = 0 ↔ v = zeroAt) :
    FormatB mk op false (fun _ v => value v) noFlags (fun s v => if v = zeroAt then s.pc + 2 else s.pc + 1) :=
  formatB_of_fileOp (alu := fun _ v => .plain (value v)) (finish := fun x => x.2.skipIf (x.1 == 0)) hword hexec
    (fun _ _ => rfl) fun _ v u hpc => State.skipIf_of_pc (t := u) hpc (beq_iff_eq.trans (hzero v))

section Refusals

variable {taken : Byte → Bool} {f a : DataAddr} {s : State} {r : Refusal}

theorem bitSkip_of_address_error (h : effectiveAddress f s = .error r) : bitSkip taken f s = .error r := by
  simp [bitSkip, h]

theorem bitSkip_of_read_error (ha : effectiveAddress f s = .ok a) (h : memRead a s = .error r) :
    bitSkip taken f s = .error r := by
  simp [bitSkip, ha, h]

end Refusals

/-- An instruction that runs `bitSkip` has the shape `BitSkip`: its word is left, and that the skip is taken when the bit
is `x`. -/
theorem bitSkipShape_of_bitSkip {mk : DataAddr → BitNum → Instr} {op : BitVec 4} {x : Bool}
    {taken : BitNum → Byte → Bool} (hword : ∀ f b, decode (op ++ b ++ f) = .ok (mk f b))
    (hskip : ∀ f b, isSkip (mk f b) = true) (hexec : ∀ f b s, exec (mk f b) s = settle (bitSkip (taken b) f s))
    (htaken : ∀ b v, taken b v = true ↔ v.getLsbD b.toNat = x) : BitSkip mk op x := by
  refine ⟨hword, ?takenCycles, ?notTakenCycles, ?completes, ?addressRefused, ?readRefused⟩
  case takenCycles => exact fun _ _ f b => cycles_of_skip_taken (hskip f b)
  case notTakenCycles => exact fun _ _ f b => cycles_of_skip_not_taken (hskip f b)
  case completes =>
    intro s t f a b v ha hr
    rw [hexec, bitSkip_ok.2 ⟨a, v, t, ha, hr, rfl⟩, settle_ok, State.skipIf_of_pc (memRead_pc hr) (htaken b v)]
  case addressRefused =>
    intro s f b r h
    rw [hexec, bitSkip_of_address_error h, settle_error]
  case readRefused =>
    intro s f a b r ha h
    rw [hexec, bitSkip_of_read_error ha h, settle_error]

/-- Settles O28: the value sent is zero for the operand 1 counted down and for the operand 255 counted up. -/
theorem countAndSkip : Obligations.CountAndSkip :=
  ⟨formatB_of_fileSkip (decode_formatB rfl) (fun _ _ _ => rfl) fun v => BitVec.sub_left_inj (x := v) (y := 0x01) 1,
    formatB_of_fileSkip (decode_formatB rfl) (fun _ _ _ => rfl) fun v => BitVec.add_left_inj (x := v) (y := 0xFF) 1,
    fun _ _ _ _ =>
      ⟨fun h => ⟨cycles_of_skip_taken rfl h, cycles_of_skip_taken rfl h⟩,
        fun h => ⟨cycles_of_skip_not_taken rfl h, cycles_of_skip_not_taken rfl h⟩⟩⟩

/-- Settles O27: the two instructions differ in their word and in the value of the bit that skips. -/
theorem bitTestsSkip : Obligations.BitTestsSkip :=
  ⟨bitSkipShape_of_bitSkip decode_btfsc (fun _ _ => rfl) (fun _ _ _ => rfl) fun b v => by simp [testBit],
    bitSkipShape_of_bitSkip decode_btfss (fun _ _ => rfl) (fun _ _ _ => rfl) fun _ _ => Iff.rfl⟩

/-! ### GOTO and CALL (R120, R121) -/

theorem exec_goto_of_mid {s : State} (h : s.params.range = .mid) (k : ProgAddr) :
    exec (.goto k) s = .next { s with pc := k } :=
  calc exec (.goto k) s
    _ = .next { s with pc := jumpTarget Config.gotoPage k s } := rfl
    _ = .next { s with pc := k } := by rw [jumpTarget_mid h]

theorem push_of_full {v : ProgAddr} {s : State} (h : stackDepth s.params.range ≤ s.stack.length) :
    push v s = .error .stackOverflow := if_neg (Nat.not_lt.2 h)

/-- The push leaves what the target is computed from. -/
theorem exec_call_of_room {s : State} (k : ProgAddr) (h : s.stack.length < stackDepth s.params.range) :
    exec (.call k) s =
      .next { s with stack := (s.pc + 1) :: s.stack, pc := jumpTarget Config.callPage k s } := by
  have hpush : push (s.pc + 1) s = .ok { s with stack := (s.pc + 1) :: s.stack } := push_ok.2 ⟨h, rfl⟩
  rw [exec, execCall, hpush]
  rfl

theorem exec_call_of_full {s : State} (k : ProgAddr) (h : stackDepth s.params.range ≤ s.stack.length) :
    exec (.call k) s = .refused .stackOverflow := by
  simp [exec, execCall, push_of_full h]

/-- Settles O29: in the mid range the target is `k`. -/
theorem gotoLoadsThePc : Obligations.GotoLoadsThePc := fun s k hmid =>
  ⟨decode_goto k, exec_goto_of_mid hmid k, cycles_of_isTransfer rfl s _⟩

/-- Settles O30: the depth of the mid range is 8 and the target is `k`. -/
theorem callPushesTheNextAddress : Obligations.CallPushesTheNextAddress := by
  intro s k hmid
  have hdepth : stackDepth s.params.range = 8 := congrArg stackDepth hmid
  refine ⟨decode_call k, cycles_of_isTransfer rfl s, fun hroom => ?pushes, fun hfull => ?overflows⟩
  case pushes => rw [exec_call_of_room k (Nat.lt_of_lt_of_eq hroom hdepth.symm), jumpTarget_mid hmid]
  case overflows => exact exec_call_of_full k (Nat.le_of_eq (hdepth.trans hfull.symm))

/-! ### Returns (R122 to R124) -/

theorem pop_of_empty {s : State} (h : s.stack = []) : pop s = .error .stackUnderflow := by simp [pop, h]

section Pops

variable {s u : State} {a : ProgAddr}

theorem exec_ret_of_pop (h : pop s = .ok (a, u)) : exec .ret s = .next { u with pc := a } := by
  simp [exec, execReturn, h]

theorem exec_retlw_of_pop (k : Byte) (h : pop s = .ok (a, u)) :
    exec (.retlw k) s = .next { u with w := k, pc := a } := by
  simp [exec, execRetlw, h]

theorem exec_retfie_of_pop (h : pop s = .ok (a, u)) : exec .retfie s = .next { u with gie := true, pc := a } := by
  simp [exec, execRetfie, returnFromInterrupt, h]

end Pops

section PopRefusals

variable {s : State} {r : Refusal}

theorem exec_ret_of_pop_error (h : pop s = .error r) : exec .ret s = .refused r := by simp [exec, execReturn, h]

theorem exec_retlw_of_pop_error (k : Byte) (h : pop s = .error r) : exec (.retlw k) s = .refused r := by
  simp [exec, execRetlw, h]

theorem exec_retfie_of_pop_error (h : pop s = .error r) : exec .retfie s = .refused r := by
  simp [exec, execRetfie, returnFromInterrupt, h]

end PopRefusals

/-- When an interrupt is due (R149, R140). -/
theorem interruptDue_iff {s : State} :
    interruptDue s = true ↔ s.params.range = .mid ∧ s.run = .running ∧ s.gie = true ∧ s.irq.now = true := by
  simp [interruptDue, and_assoc]

/-- Settles O31: all three pop, and RETFIE sets the one condition of an interrupt that the state before it can lack. -/
theorem returnsPopTheAddress : Obligations.ReturnsPopTheAddress := by
  refine ⟨⟨rfl, rfl, fun k x => decode_retlw x k⟩, ?pops, ?underflows, ?cycles⟩
  case pops =>
    intro s a rest k h
    have hpop : pop s = .ok (a, { s with stack := rest }) := pop_ok.2 ⟨rest, h, rfl⟩
    exact ⟨exec_ret_of_pop hpop, exec_retlw_of_pop k hpop, exec_retfie_of_pop hpop,
      fun hmid hrun hirq => interruptDue_iff.2 ⟨hmid, hrun, rfl, hirq⟩⟩
  case underflows =>
    intro s k h
    have hpop : pop s = .error .stackUnderflow := pop_of_empty h
    exact ⟨exec_ret_of_pop_error hpop, exec_retlw_of_pop_error k hpop, exec_retfie_of_pop_error hpop⟩
  case cycles =>
    exact fun s t k => ⟨cycles_of_isTransfer rfl s t, cycles_of_isTransfer rfl s t, cycles_of_isTransfer rfl s t⟩

end Sys2Proof.Machine
end

section
/-! Proofs/System: the words of NOP, CLRWDT and SLEEP and their whole next states; and the statement of spec/44_system.md
they settle. -/

namespace Sys2Proof

/-! ### The words of the system instructions (R67, R69) -/

/-- A word that is zero outside bits 6:5 is its own don't-care bits in NOP's row. -/
theorem nopWord_and_dontCare (x : BitVec 2) :
    (0b0000000#7 ++ x ++ 0b00000#5) &&& Instr.nop.row.dontCare = 0b0000000#7 ++ x ++ 0b00000#5 :=
  calc (0b0000000#7 ++ x ++ 0b00000#5) &&& (0b0000000#7 ++ 0b11#2 ++ 0b00000#5)
    _ = ((0b0000000#7 ++ x) &&& (0b0000000#7 ++ 0b11#2)) ++ 0b00000#5 := Laws.mask_high _ _ _
    _ = 0b0000000#7 ++ x ++ 0b00000#5 := by
      rw [BitVec.and_append, BitVec.zero_and, show (0b11#2) = BitVec.allOnes 2 from rfl, BitVec.and_allOnes]

/-- The word 0 is NOP, and the others differ from it in don't-care bits only. -/
theorem decode_nop (x : BitVec 2) : decode (0b0000000#7 ++ x ++ 0b00000#5) = .ok .nop := by
  have hzero : decode 0 = .ok .nop := rfl
  have hflip := decode_flip (m := 0b0000000#7 ++ x ++ 0b00000#5) hzero
  rwa [nopWord_and_dontCare, BitVec.ofNat_eq_ofNat, BitVec.zero_xor] at hflip

theorem decode_clrwdt : decode 0x0064 = .ok .clrwdt := rfl

theorem decode_sleep : decode 0x0063 = .ok .sleep := rfl

end Sys2Proof

namespace Sys2Proof.Machine

/-! ### The next states (R130 to R132) -/

/-- What CLRWDT and SLEEP share, as one update of the state before it. -/
theorem State.clearWatchdog_advance (s : State) (nPD : Bool) :
    (s.clearWatchdog nPD).advance = { s with wdt := 0, wdtps := 0, nTO := true, nPD := nPD, pc := s.pc + 1 } := rfl

theorem exec_clrwdt (s : State) : exec .clrwdt s = .next (s.clearWatchdog true).advance := rfl

theorem exec_nop (s : State) : exec .nop s = .next s.advance := rfl

theorem exec_sleep (s : State) :
    exec .sleep s = .next { (s.clearWatchdog false).advance with run := .sleeping } := rfl

/-- Settles O33: NOP's words by its don't-care bits; CLRWDT and SLEEP clear the watchdog alike and differ in /PD and in
the run state. -/
theorem systemInstructionResults : Obligations.SystemInstructionResults := by
  refine ⟨⟨decode_clrwdt, decode_sleep, decode_nop⟩, fun _ _ => rfl, fun s => ⟨?clrwdt, exec_nop s, ?sleep⟩⟩
  case clrwdt => rw [exec_clrwdt, State.clearWatchdog_advance]
  case sleep => rw [exec_sleep, State.clearWatchdog_advance]

end Sys2Proof.Machine
end

section
/-! Proofs/LowRange: which instructions each core's decoder gives and which operands fit its fields; the low range's reset
vector and the page its jumps go to; and the statements of spec/45_low_range.md they settle. -/

namespace Sys2Proof

open Sys2Proof.Spec

/-! ### The operand fields of a core (R62 to R66, R144)

Bit numbers and literals have the same field in both cores; the field `f` and the `k` of a jump are as wide as their
types in the mid range only. -/

@[simp] theorem BitNum.fits (r : CoreRange) (b : BitNum) : b.toNat < 2 ^ (fieldWidths r).b := by
  cases r <;> exact b.isLt

@[simp] theorem Byte.fits (r : CoreRange) (k : Byte) : k.toNat < 2 ^ (fieldWidths r).k := by
  cases r <;> exact k.isLt

@[simp] theorem DataAddr.fits_mid (f : DataAddr) : f.toNat < 2 ^ (fieldWidths .mid).f := f.isLt

@[simp] theorem ProgAddr.fits_mid (k : ProgAddr) : k.toNat < 2 ^ (fieldWidths .mid).jump := k.isLt

theorem DataAddr.fits_low_iff {f : DataAddr} : f.toNat < 2 ^ (fieldWidths .low).f ↔ f.toNat ≤ 31 :=
  Nat.lt_succ_iff

theorem ProgAddr.fits_low_iff {k : ProgAddr} : k.toNat < 2 ^ (fieldWidths .low).jump ↔ k.toNat ≤ 511 :=
  Nat.lt_succ_iff

/-! ### The instructions of a core (R1, R2, R135) -/

/-- For an instruction with a field `f` nothing but that field decides. -/
theorem Instr.onCore_of_fileField {i : Instr} {f : DataAddr} (r : CoreRange) (h : fileField i = some f) :
    i.onCore r = true ↔ f.toNat < 2 ^ (fieldWidths r).f := by
  cases i with
  | bcf g b | bsf g b | btfsc g b | btfss g b =>
    cases h
    simp [Instr.onCore]
  | _ => cases h <;> exact decide_eq_true_iff

theorem Instr.onCore_call {r : CoreRange} {k : ProgAddr} :
    (Instr.call k).onCore r = true ↔ k.toNat < 2 ^ (fieldWidths r).jump := decide_eq_true_iff

theorem Instr.onCore_goto {r : CoreRange} {k : ProgAddr} :
    (Instr.goto k).onCore r = true ↔ k.toNat < 2 ^ (fieldWidths r).jump := decide_eq_true_iff

/-- The types of the operands are the mid range's fields, so there an instruction needs only to be of its set. -/
theorem Instr.onCore_mid_of_range {i : Instr} (h : i.range = .mid) : i.onCore .mid = true := by
  cases i with
  | option | tris f => cases h
  | _ => simp [Instr.onCore]

/-! ### What the decoders give (R71, R75) -/

theorem decodeNoOperand_range {w : InstrWord} {i : Instr} (h : decodeNoOperand w = .ok i) : i.range = .mid := by
  unfold decodeNoOperand at h
  split at h <;> cases h <;> rfl

theorem decodeByteGroup_range {w : InstrWord} {i : Instr} (h : decodeByteGroup w = .ok i) : i.range = .mid := by
  unfold decodeByteGroup at h
  split at h
  case h_15 => split at h <;> cases h <;> rfl
  case h_16 =>
    split at h
    · cases h
      rfl
    · exact decodeNoOperand_range h
  all_goals
    cases h
    rfl

theorem decodeBitGroup_range {w : InstrWord} {i : Instr} (h : decodeBitGroup w = .ok i) : i.range = .mid := by
  unfold decodeBitGroup at h
  split at h <;> cases h <;> rfl

theorem decodeJumpGroup_range {w : InstrWord} {i : Instr} (h : decodeJumpGroup w = .ok i) : i.range = .mid := by
  unfold decodeJumpGroup at h
  split at h <;> cases h <;> rfl

theorem decodeLiteralGroup_range {w : InstrWord} {i : Instr} (h : decodeLiteralGroup w = .ok i) :
    i.range = .mid := by
  unfold decodeLiteralGroup at h
  split at h
  case h_1 | h_2 =>
    cases h
    rfl
  case h_3 | h_4 => split at h <;> cases h <;> rfl

theorem decode_range {w : InstrWord} {i : Instr} (h : decode w = .ok i) : i.range = .mid := by
  unfold decode at h
  split at h
  case h_1 => exact decodeByteGroup_range h
  case h_2 => exact decodeBitGroup_range h
  case h_3 => exact decodeJumpGroup_range h
  case h_4 => exact decodeLiteralGroup_range h

theorem decodeLow_onCore {w : InstrWord} {i : Instr} (h : decodeLow w = .ok i) : i.onCore .low = true := by
  unfold decodeLow at h
  split at h <;> cases h <;> rfl

/-- Both decoders keep to their core: the mid range's gives no low-range instruction, and the low range's gives OPTION and
TRIS with an operand from 5. -/
theorem decodeFor_onCore {r : CoreRange} {w : InstrWord} {i : Instr} (h : decodeFor r w = .ok i) :
    i.onCore r = true := by
  cases r with
  | mid => exact Instr.onCore_mid_of_range (decode_range h)
  | low => exact decodeLow_onCore h

/-- Settles O60: the decoders keep to their cores, and clause by clause what an instruction needs to be one of a core's. -/
theorem decodedInstructionsFitTheCore : Obligations.DecodedInstructionsFitTheCore := by
  refine ⟨fun _ _ _ => decodeFor_onCore, ?fileFields, ?jumps, ?literals, ?noOperand, ?midOnly, ?lowOnly⟩
  case fileFields =>
    exact fun i f h => ⟨(Instr.onCore_of_fileField .low h).trans DataAddr.fits_low_iff,
      (Instr.onCore_of_fileField .mid h).2 f.fits_mid⟩
  case jumps =>
    exact fun k => ⟨Instr.onCore_call.trans ProgAddr.fits_low_iff, Instr.onCore_goto.trans ProgAddr.fits_low_iff,
      Instr.onCore_call.2 k.fits_mid, Instr.onCore_goto.2 k.fits_mid⟩
  case literals => exact fun r k => by simp [Instr.onCore]
  case noOperand => exact fun _ => ⟨rfl, rfl, rfl, rfl⟩
  case midOnly => exact fun r k => by simp [Instr.onCore]
  case lowOnly => exact fun r f => by simp [Instr.onCore, Instr.wellFormed]

/-- RETFIE is none of the low range's instructions (R140), so no word of it decodes to RETFIE. -/
theorem decodeLow_ne_retfie (w : InstrWord) : decodeLow w ≠ .ok .retfie :=
  fun h => absurd (decodeLow_onCore h) (by decide)

end Sys2Proof

namespace Sys2Proof.Machine

/-! ### The reset vector of the low range (R139) -/

theorem progWords_of_paramsValid {p : Params} (h : paramsValid p = true) : 1 ≤ p.progWords ∧ p.progWords ≤ 2048 := by
  simp only [paramsValid, Bool.and_eq_true, decide_eq_true_eq] at h
  obtain ⟨⟨⟨⟨hlo, hhi⟩, -⟩, -⟩, -⟩ := h
  exact ⟨hlo, hhi⟩

/-- A valid instruction memory has at most 2048 words, so its last address has eleven bits. -/
theorem resetVector_low_toNat {p : Params} (hlow : p.range = .low) (hvalid : paramsValid p = true) :
    (resetVector p).toNat = p.progWords - 1 := by
  obtain ⟨hlo, hhi⟩ := progWords_of_paramsValid hvalid
  simp only [resetVector, hlow, BitVec.toNat_ofNat]
  omega

/-! ### No interrupts, and jumps of nine bits (R140, R141, R144) -/

theorem interruptDue_of_low {s : State} (h : s.params.range = .low) : interruptDue s = false := by
  simp [interruptDue, h]

/-- A 9-bit `k` stands in the target as it is, under the two bits of the page. -/
theorem jumpTarget_low_of_le {page : BitVec 3 → BitVec 9 → BitVec 2} {k : ProgAddr} {s : State}
    (hlow : s.params.range = .low) (hk : k.toNat ≤ 511) :
    (jumpTarget page k s).toNat = 512 * (page s.pa (.ofNat 9 k.toNat)).toNat + k.toNat := by
  rw [jumpTarget_low hlow, BitVec.ofNat_toNat, Nat.mod_eq_of_lt (Nat.lt_succ_of_le hk)]

theorem exec_goto (k : ProgAddr) (s : State) :
    exec (.goto k) s = .next { s with pc := jumpTarget Config.gotoPage k s } := rfl

/-- Settles O58: the depth of the low range is 2, and what GOTO and CALL do with a target is the same in both ranges. -/
theorem lowRangeDifferences : Obligations.LowRangeDifferences := by
  intro s hlow hvalid
  have hdepth : stackDepth s.params.range = 2 := congrArg stackDepth hlow
  have hroom : s.stack.length < 2 → s.stack.length < stackDepth s.params.range := fun h => hdepth.symm ▸ h
  have hfull : s.stack.length = 2 → stackDepth s.params.range ≤ s.stack.length := fun h =>
    Nat.le_of_eq (hdepth.trans h.symm)
  refine ⟨?resetVector, interruptDue_of_low hlow, decodeLow_ne_retfie, fun v h => push_ok.2 ⟨hroom h, rfl⟩,
    fun v h => push_of_full (hfull h), fun k hk => ⟨?goto, fun h => ?call, fun h => exec_call_of_full k (hfull h)⟩⟩
  case resetVector => rw [State.powerOn_pc, resetVector_low_toNat hlow hvalid]
  case goto => exact ⟨jumpTarget Config.gotoPage k s, exec_goto k s, jumpTarget_low_of_le hlow hk⟩
  case call =>
    exact ⟨jumpTarget Config.callPage k s, exec_call_of_room k (hroom h), jumpTarget_low_of_le hlow hk⟩

end Sys2Proof.Machine
end

section
/-! Proofs/Exceptions: the boundary at which an interrupt is due, and an interrupt entry that finds no room on the
stack; and the statement of spec/60_exceptions.md they settle. -/

namespace Sys2Proof.Machine

/-! ### Interrupt entry (R149) -/

/-- The entry is instead of a fetch, so the program does not matter. -/
theorem runBoundary_of_interruptDue {s : State} (h : interruptDue s = true) :
    runBoundary s = settle (takeInterrupt s.irqAsked) := if_pos h

theorem takeInterrupt_of_full {s : State} (h : stackDepth s.params.range ≤ s.stack.length) :
    takeInterrupt s = .error .stackOverflow := by
  rw [takeInterrupt, push_of_full h]

/-- Settles O38: the step is the entry of the state whose request was asked for, and asking leaves the stack and its
depth, 8 in the mid range, as they were. -/
theorem interruptEntryPushesAndDisables : Obligations.InterruptEntryPushesAndDisables := by
  intro s hlaunch hmid hrun hgie hirq
  have hdepth : stackDepth s.irqAsked.params.range = 8 := congrArg stackDepth hmid
  have hstep : step s = settle (takeInterrupt s.irqAsked) :=
    calc step s
      _ = runBoundary s := step_of_running hlaunch hrun
      _ = settle (takeInterrupt s.irqAsked) :=
        runBoundary_of_interruptDue (interruptDue_iff.2 ⟨hmid, hrun, hgie, hirq⟩)
  refine ⟨fun hroom => ?enters, fun hfull => ?overflows⟩
  case enters => exact hstep.trans (settle_eq_next.2 (takeInterrupt_ok.2 ⟨Nat.lt_of_lt_of_eq hroom hdepth.symm, rfl⟩))
  case overflows => rw [hstep, takeInterrupt_of_full (Nat.le_of_eq (hdepth.trans hfull.symm)), settle_error]

end Sys2Proof.Machine
end

section
/-! Proofs/RoundTrip: from an instruction to its word and back, from a word to its row of the opcode map, and from a
source line to its word; and the remaining statements of spec/30_encoding.md. -/

namespace Sys2Proof

open Sys2Proof.Spec

/-! ### From an instruction to its word and back (R68, R71, R75) -/

theorem decode_encode {i : Instr} (h : i.range = .mid) : decode (encode i) = .ok i := by
  cases i with
  | addwf f d | andwf f d | comf f d | decf f d | decfsz f d | incf f d | incfsz f d | iorwf f d | movf f d | rlf f d
  | rrf f d | subwf f d | swapf f d | xorwf f d => exact decode_formatB rfl (f := f) (d := d)
  | clrf f => exact decode_clrf f
  | movwf f => exact decode_movwf f
  | clrw => exact decode_clrw 0
  | bcf f b => exact decode_bcf f b
  | bsf f b => exact decode_bsf f b
  | btfsc f b => exact decode_btfsc f b
  | btfss f b => exact decode_btfss f b
  | call k => exact decode_call k
  | goto k => exact decode_goto k
  | andlw k | iorlw k | xorlw k => exact decode_formatL rfl (k := k)
  | addlw k => exact decode_addlw 0 k
  | sublw k => exact decode_sublw 0 k
  | movlw k => exact decode_movlw 0 k
  | retlw k => exact decode_retlw 0 k
  | clrwdt | nop | retfie | ret | sleep => rfl
  | option | tris f => cases h

theorem decodeLow_encode {i : Instr} (hlow : i.range = .low) (hwf : i.wellFormed = true) :
    decodeLow (encode i) = .ok i := by
  cases i with
  | option => rfl
  | tris f =>
    have hf : f = 5 ∨ f = 6 ∨ f = 7 := by
      revert f
      decide
    rcases hf with rfl | rfl | rfl <;> rfl
  | _ => cases hlow

/-- Settles O1: each core's decoder undoes the encoder on the instructions of its core. -/
theorem decodeOfEncodeIsTheInstruction : Obligations.DecodeOfEncodeIsTheInstruction := by
  intro i hwf
  cases hr : i.range with
  | mid => exact decode_encode hr
  | low => exact decodeLow_encode hr hwf

/-! ### Fixed words (R70, R75) -/

/-- Settles O6: each word is evaluated. -/
theorem sampleWordsDecode : Obligations.SampleWordsDecode := ⟨rfl, rfl, rfl, rfl, rfl, rfl, rfl, rfl⟩

/-! ### A word put together again from its fields (R62 to R66)

`op` is what stands above the operand fields. -/

theorem toNat_destBit_fieldD (w : InstrWord) : (fieldD w).bit.toNat = w.toNat / 2 ^ 7 % 2 := by
  have hbit := getElem_eq_true_iff w 7 (by decide)
  by_cases h : w[7] = true
  · rw [fieldD, if_pos h, hbit.1 h]
    rfl
  · rw [fieldD, if_neg h, Nat.mod_two_ne_one.1 (mt hbit.2 h)]
    rfl

/-- `op`, the destination bit and the register field of `w`. -/
theorem append_fieldD_fieldF {w : InstrWord} {op : BitVec 6} (h : w.toNat / 2 ^ 8 = op.toNat) :
    op ++ (fieldD w).bit ++ fieldF w = w := by
  apply BitVec.eq_of_toNat_eq
  rw [Machine.toNat_append_eq_add, Machine.toNat_append_eq_add, toNat_destBit_fieldD, fieldF, toNat_extractLsb']
  omega

theorem append_fieldF {w : InstrWord} {op : BitVec 7} (h : w.toNat / 2 ^ 7 = op.toNat) : op ++ fieldF w = w := by
  apply BitVec.eq_of_toNat_eq
  rw [Machine.toNat_append_eq_add, fieldF, toNat_extractLsb']
  omega

theorem append_fieldB_fieldF {w : InstrWord} {op : BitVec 4} (h : w.toNat / 2 ^ 10 = op.toNat) :
    op ++ fieldB w ++ fieldF w = w := by
  apply BitVec.eq_of_toNat_eq
  rw [Machine.toNat_append_eq_add, Machine.toNat_append_eq_add, fieldB, fieldF, toNat_extractLsb', toNat_extractLsb']
  omega

theorem append_fieldK11 {w : InstrWord} {op : BitVec 3} (h : w.toNat / 2 ^ 11 = op.toNat) : op ++ fieldK11 w = w := by
  apply BitVec.eq_of_toNat_eq
  rw [Machine.toNat_append_eq_add, fieldK11, toNat_extractLsb']
  omega

theorem append_fieldK8 {w : InstrWord} {op : BitVec 6} (h : w.toNat / 2 ^ 8 = op.toNat) : op ++ fieldK8 w = w := by
  apply BitVec.eq_of_toNat_eq
  rw [Machine.toNat_append_eq_add, fieldK8, toNat_extractLsb']
  omega


/-! ### The don't-care bits of a decoded word (R69)

`0#n ++ allOnes m ++ 0#l` marks the `m` positions of `x` in the word `a ++ x ++ k`. -/

theorem clear_middle {n m l : Nat} (a : BitVec n) (x : BitVec m) (k : BitVec l) :
    (a ++ x ++ k) &&& ~~~(0#n ++ BitVec.allOnes m ++ 0#l) = a ++ 0#m ++ k := by
  simp only [BitVec.not_append, BitVec.and_append, BitVec.not_zero, BitVec.not_allOnes, BitVec.and_allOnes,
    BitVec.and_zero]

theorem encode_of_no_dontCare {i : Instr} {w : InstrWord} (hd : i.row.dontCare = 0) (h : encode i = w) :
    encode i = w &&& ~~~i.row.dontCare := by
  rw [hd, h, BitVec.ofNat_eq_ofNat, BitVec.not_zero, BitVec.and_allOnes]

/-- Two don't-care bits above an 8-bit literal: MOVLW and RETLW. -/
theorem append_zero_fieldK8_two {w : InstrWord} {op : BitVec 4} (h : w.toNat / 2 ^ 10 = op.toNat) :
    op ++ 0#2 ++ fieldK8 w = w &&& ~~~(0#4 ++ BitVec.allOnes 2 ++ 0#8) := by
  have hw : op ++ w.extractLsb' 8 2 ++ fieldK8 w = w :=
    append_fieldK8 (by rw [Machine.toNat_append_eq_add, toNat_extractLsb']; omega)
  calc op ++ 0#2 ++ fieldK8 w
    _ = (op ++ w.extractLsb' 8 2 ++ fieldK8 w) &&& ~~~(0#4 ++ BitVec.allOnes 2 ++ 0#8) := (clear_middle _ _ _).symm
    _ = w &&& ~~~(0#4 ++ BitVec.allOnes 2 ++ 0#8) := congrArg (· &&& _) hw

/-- One don't-care bit above an 8-bit literal: ADDLW and SUBLW. -/
theorem append_zero_fieldK8_one {w : InstrWord} {op : BitVec 5} (h : w.toNat / 2 ^ 9 = op.toNat) :
    op ++ 0#1 ++ fieldK8 w = w &&& ~~~(0#5 ++ BitVec.allOnes 1 ++ 0#8) := by
  have hw : op ++ w.extractLsb' 8 1 ++ fieldK8 w = w :=
    append_fieldK8 (by rw [Machine.toNat_append_eq_add, toNat_extractLsb']; omega)
  calc op ++ 0#1 ++ fieldK8 w
    _ = (op ++ w.extractLsb' 8 1 ++ fieldK8 w) &&& ~~~(0#5 ++ BitVec.allOnes 1 ++ 0#8) := (clear_middle _ _ _).symm
    _ = w &&& ~~~(0#5 ++ BitVec.allOnes 1 ++ 0#8) := congrArg (· &&& _) hw

/-- Seven don't-care bits and no operand: CLRW. -/
theorem encode_clrw_eq {w : InstrWord} (h : w.toNat / 2 ^ 7 = 2) : encode .clrw = w &&& ~~~Instr.clrw.row.dontCare := by
  have hw : 0b0000010#7 ++ fieldF w = w := append_fieldF h
  calc encode .clrw
    _ = (0b0000010#7 &&& 0b1111111#7) ++ 0#7 := rfl
    _ = (0b0000010#7 ++ fieldF w) &&& (0b1111111#7 ++ 0#7) := (Laws.mask_high _ _ _).symm
    _ = w &&& (0b1111111#7 ++ 0#7) := congrArg (· &&& _) hw

theorem decodeNoOperand_encode {w : InstrWord} {i : Instr} (hlt : w.toNat < 0x0080) (h : decodeNoOperand w = .ok i) :
    encode i = w &&& ~~~i.row.dontCare := by
  have hw : w = .ofNat 14 (w.extractLsb' 0 7).toNat := by
    apply BitVec.eq_of_toNat_eq
    rw [BitVec.toNat_ofNat, toNat_extractLsb']
    omega
  unfold decodeNoOperand at h
  split at h <;> cases h
  all_goals
    next hlow =>
      rw [hlow] at hw
      rw [hw]
      rfl

theorem decodeByteGroup_encode {w : InstrWord} {i : Instr} (hlt : w.toNat < 0x1000) (h : decodeByteGroup w = .ok i) :
    encode i = w &&& ~~~i.row.dontCare := by
  unfold decodeByteGroup at h
  simp only [toNat_extractLsb', getElem_eq_true_iff] at h
  split at h
  case h_15 =>
    split at h <;> cases h
    · exact encode_of_no_dontCare rfl (append_fieldF (by change _ = 3; omega))
    · exact encode_clrw_eq (by omega)
  case h_16 =>
    simp only [imp_false] at *
    split at h
    · cases h
      exact encode_of_no_dontCare rfl (append_fieldF (by change _ = 1; omega))
    · exact decodeNoOperand_encode (by omega) h
  all_goals
    next hop =>
      cases h
      exact encode_of_no_dontCare rfl (append_fieldD_fieldF (.trans (by omega) hop))

theorem decodeBitGroup_encode {w : InstrWord} {i : Instr} (hgroup : w.toNat / 2 ^ 12 = 1)
    (h : decodeBitGroup w = .ok i) : encode i = w &&& ~~~i.row.dontCare := by
  unfold decodeBitGroup at h
  simp only [toNat_extractLsb'] at h
  split at h <;> cases h
  case h_1 hop => exact encode_of_no_dontCare rfl (append_fieldB_fieldF (by change _ = 4; omega))
  case h_2 hop => exact encode_of_no_dontCare rfl (append_fieldB_fieldF (by change _ = 5; omega))
  case h_3 hop => exact encode_of_no_dontCare rfl (append_fieldB_fieldF (by change _ = 6; omega))
  case h_4 =>
    simp only [imp_false] at *
    exact encode_of_no_dontCare rfl (append_fieldB_fieldF (by change _ = 7; omega))

theorem decodeJumpGroup_encode {w : InstrWord} {i : Instr} (hgroup : w.toNat / 2 ^ 12 = 2)
    (h : decodeJumpGroup w = .ok i) : encode i = w &&& ~~~i.row.dontCare := by
  unfold decodeJumpGroup at h
  simp only [getElem_eq_true_iff] at h
  split at h <;> cases h
  · exact encode_of_no_dontCare rfl (append_fieldK11 (by change _ = 5; omega))
  · exact encode_of_no_dontCare rfl (append_fieldK11 (by change _ = 4; omega))

theorem decodeLiteralGroup_encode {w : InstrWord} {i : Instr} (hgroup : w.toNat / 2 ^ 12 = 3)
    (h : decodeLiteralGroup w = .ok i) : encode i = w &&& ~~~i.row.dontCare := by
  unfold decodeLiteralGroup at h
  simp only [toNat_extractLsb', getElem_eq_true_iff] at h
  split at h
  case h_1 hop =>
    cases h
    exact append_zero_fieldK8_two (op := 0b1100#4) (by change _ = 12; omega)
  case h_2 hop =>
    cases h
    exact append_zero_fieldK8_two (op := 0b1101#4) (by change _ = 13; omega)
  case h_3 hop =>
    split at h <;> cases h
    case h_1 => exact encode_of_no_dontCare rfl (append_fieldK8 (by change _ = 0b111000; omega))
    case h_2 => exact encode_of_no_dontCare rfl (append_fieldK8 (by change _ = 0b111001; omega))
    case h_3 => exact encode_of_no_dontCare rfl (append_fieldK8 (by change _ = 0b111010; omega))
  case h_4 =>
    simp only [imp_false] at *
    split at h <;> cases h
    · exact append_zero_fieldK8_one (op := 0b11111#5) (by change _ = 31; omega)
    · exact append_zero_fieldK8_one (op := 0b11110#5) (by change _ = 30; omega)

theorem encode_of_decode {w : InstrWord} {i : Instr} (h : decode w = .ok i) :
    encode i = w &&& ~~~i.row.dontCare := by
  unfold decode at h
  simp only [toNat_extractLsb'] at h
  split at h
  case h_1 hgroup => exact decodeByteGroup_encode (by omega) h
  case h_2 hgroup => exact decodeBitGroup_encode (by omega) h
  case h_3 hgroup => exact decodeJumpGroup_encode (by omega) h
  case h_4 =>
    simp only [imp_false] at *
    exact decodeLiteralGroup_encode (by omega) h

/-- Settles O2: in every branch of the decision tree the word is the opcode, the instruction's own fields and the
don't-care bits. -/
theorem encodeOfDecodeClearsDontCareBits : Obligations.EncodeOfDecodeClearsDontCareBits := fun _ _ =>
  encode_of_decode

/-! ### The opcode map (R70, R72) -/

theorem encode_mask {i : Instr} (h : i.wellFormed = true) : encode i &&& i.row.mask = i.row.bits := by
  cases i with
  | addlw k => exact (Laws.EncodesItsRow.addlw k h).1
  | addwf f d => exact (Laws.EncodesItsRow.addwf f d h).1
  | andlw k => exact (Laws.EncodesItsRow.andlw k h).1
  | andwf f d => exact (Laws.EncodesItsRow.andwf f d h).1
  | bcf f b => exact (Laws.EncodesItsRow.bcf f b h).1
  | bsf f b => exact (Laws.EncodesItsRow.bsf f b h).1
  | btfsc f b => exact (Laws.EncodesItsRow.btfsc f b h).1
  | btfss f b => exact (Laws.EncodesItsRow.btfss f b h).1
  | call k => exact (Laws.EncodesItsRow.call k h).1
  | clrf f => exact (Laws.EncodesItsRow.clrf f h).1
  | clrw => exact (Laws.EncodesItsRow.clrw h).1
  | clrwdt => exact (Laws.EncodesItsRow.clrwdt h).1
  | comf f d => exact (Laws.EncodesItsRow.comf f d h).1
  | decf f d => exact (Laws.EncodesItsRow.decf f d h).1
  | decfsz f d => exact (Laws.EncodesItsRow.decfsz f d h).1
  | goto k => exact (Laws.EncodesItsRow.goto k h).1
  | incf f d => exact (Laws.EncodesItsRow.incf f d h).1
  | incfsz f d => exact (Laws.EncodesItsRow.incfsz f d h).1
  | iorlw k => exact (Laws.EncodesItsRow.iorlw k h).1
  | iorwf f d => exact (Laws.EncodesItsRow.iorwf f d h).1
  | movlw k => exact (Laws.EncodesItsRow.movlw k h).1
  | movf f d => exact (Laws.EncodesItsRow.movf f d h).1
  | movwf f => exact (Laws.EncodesItsRow.movwf f h).1
  | nop => exact (Laws.EncodesItsRow.nop h).1
  | retfie => exact (Laws.EncodesItsRow.retfie h).1
  | retlw k => exact (Laws.EncodesItsRow.retlw k h).1
  | ret => exact (Laws.EncodesItsRow.ret h).1
  | rlf f d => exact (Laws.EncodesItsRow.rlf f d h).1
  | rrf f d => exact (Laws.EncodesItsRow.rrf f d h).1
  | sleep => exact (Laws.EncodesItsRow.sleep h).1
  | sublw k => exact (Laws.EncodesItsRow.sublw k h).1
  | subwf f d => exact (Laws.EncodesItsRow.subwf f d h).1
  | swapf f d => exact (Laws.EncodesItsRow.swapf f d h).1
  | xorlw k => exact (Laws.EncodesItsRow.xorlw k h).1
  | xorwf f d => exact (Laws.EncodesItsRow.xorwf f d h).1
  | option => exact (Laws.EncodesItsRow.option h).1
  | tris f => exact (Laws.EncodesItsRow.tris f h).1

theorem row_mem_opcodeMap {i : Instr} (h : i.range = .mid) : i.row ∈ opcodeMap := by
  cases i with
  | option | tris f => cases h
  | _ => simp [Instr.row, opcodeMap]

/-- In no row is a don't-care bit one that the mask looks at. -/
theorem mask_sees_no_dontCare {r : OpcodeRow} (h : r ∈ opcodeMap) : ~~~r.dontCare &&& r.mask = r.mask := by
  revert r
  decide

/-- Any two rows ask for different values of some bit. -/
theorem rows_differ_in_a_common_bit :
    ∀ r ∈ opcodeMap, ∀ r' ∈ opcodeMap, r.bits &&& r'.mask = r'.bits &&& r.mask → r = r' := by
  decide

theorem row_eq_of_holds {r r' : OpcodeRow} {w : InstrWord} (hr : r ∈ opcodeMap) (hr' : r' ∈ opcodeMap)
    (h : r.holds w = true) (h' : r'.holds w = true) : r = r' := by
  apply rows_differ_in_a_common_bit r hr r' hr'
  rw [← beq_iff_eq.1 h, ← beq_iff_eq.1 h', BitVec.and_assoc, BitVec.and_assoc, BitVec.and_comm r.mask]

theorem Instr.wellFormed_of_range_mid {i : Instr} (h : i.range = .mid) : i.wellFormed = true := by
  cases i with
  | option | tris f => cases h
  | _ => rfl

theorem row_holds_of_decode {w : InstrWord} {i : Instr} (h : decode w = .ok i) : i.row.holds w = true := by
  have hmid : i.range = .mid := decode_range h
  rw [OpcodeRow.holds, beq_iff_eq]
  calc w &&& i.row.mask
    _ = w &&& (~~~i.row.dontCare &&& i.row.mask) := by rw [mask_sees_no_dontCare (row_mem_opcodeMap hmid)]
    _ = encode i &&& i.row.mask := by rw [encode_of_decode h, BitVec.and_assoc]
    _ = i.row.bits := encode_mask (Instr.wellFormed_of_range_mid hmid)

theorem toNat_and_add_and_not {n : Nat} (w m : BitVec n) : (w &&& m).toNat + (w &&& ~~~m).toNat = w.toNat := by
  have hdisjoint : (w &&& m) &&& (w &&& ~~~m) = 0#n := by
    ext j hj
    cases hm : m[j] <;> simp [hm]
  have hunion : (w &&& m) ||| (w &&& ~~~m) = w := by
    ext j hj
    cases hm : m[j] <;> simp [hm]
  rw [← BitVec.toNat_add_of_and_eq_zero hdisjoint, BitVec.add_eq_or_of_and_eq_zero _ _ hdisjoint, hunion]

/-- The words of a row stand between its bits with zeros and with ones outside the mask. -/
theorem toNat_of_row_holds {r : OpcodeRow} {w : InstrWord} (h : r.holds w = true) :
    r.bits.toNat ≤ w.toNat ∧ w.toNat ≤ r.bits.toNat + (~~~r.mask).toNat := by
  have hsplit : r.bits.toNat + (w &&& ~~~r.mask).toNat = w.toNat := by
    rw [← beq_iff_eq.1 h, toNat_and_add_and_not]
  have hrest : (w &&& ~~~r.mask).toNat ≤ (~~~r.mask).toNat := by
    rw [BitVec.toNat_and]
    exact Nat.and_le_right
  omega

/-- Beside NOP's, every row is one of the four fixed words below 0x0080, or stands above 0x007F and to one side of the
reserved words of `11 1011`. -/
theorem row_beside_reserved : ∀ r ∈ opcodeMap, r = Instr.nop.row ∨
    (r.mask = BitVec.allOnes 14 ∧ r.bits.toNat ∈ [0x0008, 0x0009, 0x0063, 0x0064]) ∨
    (0x0080 ≤ r.bits.toNat ∧ (r.bits.toNat + (~~~r.mask).toNat < 0x3B00 ∨ 0x3C00 ≤ r.bits.toNat)) := by
  decide

/-- NOP's words are 0 with don't-care bits flipped. -/
theorem decode_of_nop_row_holds {w : InstrWord} (h : Instr.nop.row.holds w = true) : decode w = .ok .nop := by
  have hmask : w &&& 0x3F9F#14 = 0#14 := beq_iff_eq.1 h
  have hw : 0#14 ^^^ (w &&& Instr.nop.row.dontCare) = w := by
    apply BitVec.eq_of_toNat_eq
    rw [BitVec.zero_xor, ← toNat_and_add_and_not w 0x3F9F#14, hmask, BitVec.toNat_zero, Nat.zero_add]
    rfl
  exact hw ▸ decode_flip (m := w) (w := 0#14) rfl

theorem decode_of_not_reserved {w : InstrWord} (h : ¬reservedWord w) : ∃ i, decode w = .ok i := by
  obtain ⟨-, hok⟩ := (decode_answersByR73 w).illegal_and_ok_iff
  exact hok.2 h

theorem decode_of_row_holds {r : OpcodeRow} {w : InstrWord} (hr : r ∈ opcodeMap) (h : r.holds w = true) :
    ∃ i, decode w = .ok i := by
  obtain ⟨hlo, hhi⟩ := toNat_of_row_holds h
  rcases row_beside_reserved r hr with rfl | ⟨hmask, hbits⟩ | ⟨hlow, hside⟩
  · exact ⟨.nop, decode_of_nop_row_holds h⟩
  · have hfixed : (~~~r.mask).toNat = 0 := by rw [hmask, BitVec.not_allOnes, BitVec.toNat_zero]
    apply decode_of_not_reserved
    simp only [List.mem_cons, List.not_mem_nil, or_false] at hbits
    unfold reservedWord
    omega
  · apply decode_of_not_reserved
    rw [reservedWord_iff_of_high (by omega)]
    omega

/-- Settles O3: the instruction a word of a row decodes to has a row that holds of the word, and no two rows do. -/
theorem wordIsOfRowExactlyWhenMaskMatches : Obligations.WordIsOfRowExactlyWhenMaskMatches := by
  refine ⟨fun r w hr => ⟨fun h => ?decodes, ?holds⟩, fun r r' w => row_eq_of_holds⟩
  case decodes =>
    obtain ⟨i, hi⟩ := decode_of_row_holds hr h
    exact ⟨i, hi, row_eq_of_holds (row_mem_opcodeMap (decode_range hi)) hr (row_holds_of_decode hi) h⟩
  case holds =>
    rintro ⟨i, hi, rfl⟩
    exact row_holds_of_decode hi

/-! ### From a source line to its word (R76, R77) -/

theorem inRange_iff {i : SourceInstr} : i.inRange = true ↔ inStatedRange i := by
  cases i <;> simp [SourceInstr.inRange, inStatedRange, Nat.le_one_iff_eq_zero_or_eq_one]

theorem namesDest_written (d : Nat) : namesDest d (.written d) := by
  constructor <;> rintro rfl <;> rfl

theorem instr_wellFormed {i : SourceInstr} (h : inStatedRange i) : i.instr.wellFormed = true := by
  cases i with
  | tris f =>
    obtain ⟨hlo, hhi⟩ := h
    have hf : (BitVec.ofNat 3 f).toNat = f := by rw [BitVec.toNat_ofNat]; omega
    exact decide_eq_true (hf.symm ▸ hlo)
  | _ => rfl

theorem toNat_ofNat_of_le {n a k : Nat} (h : a ≤ k) (hk : k < 2 ^ n := by decide) : (BitVec.ofNat n a).toNat = a := by
  rw [BitVec.toNat_ofNat, Nat.mod_eq_of_lt (Nat.lt_of_le_of_lt h hk)]

/-- No operand in its range is truncated. -/
theorem names_instr {i : SourceInstr} (h : inStatedRange i) : names i i.instr := by
  cases i with
  | addwf f d | andwf f d | comf f d | decf f d | decfsz f d | incf f d | incfsz f d | iorwf f d | movf f d | rlf f d
  | rrf f d | subwf f d | swapf f d | xorwf f d => exact ⟨toNat_ofNat_of_le h.1, namesDest_written d⟩
  | bcf f b | bsf f b | btfsc f b | btfss f b => exact ⟨toNat_ofNat_of_le h.1, toNat_ofNat_of_le h.2⟩
  | clrf f | movwf f => exact toNat_ofNat_of_le (k := 127) h
  | addlw k | andlw k | iorlw k | movlw k | retlw k | sublw k | xorlw k => exact toNat_ofNat_of_le (k := 255) h
  | call k | goto k => exact toNat_ofNat_of_le (k := 2047) h
  | tris f => exact toNat_ofNat_of_le h.2
  | clrw | clrwdt | nop | retfie | ret | sleep | option => trivial

theorem assemble_of_out_of_range {i : SourceInstr} (h : ¬inStatedRange i) : i.assemble = none :=
  if_neg (mt inRange_iff.1 h)

theorem assemble_of_in_range {i : SourceInstr} (h : inStatedRange i) : i.assemble = some (encode i.instr) :=
  if_pos (inRange_iff.2 h)

/-- Settles O7: the word of a line in range is its instruction's encoding, which decodes to the instruction again. -/
theorem assemblerRejectsOutOfRangeOperands : Obligations.AssemblerRejectsOutOfRangeOperands := fun i =>
  ⟨assemble_of_out_of_range, fun h => ⟨encode i.instr, i.instr, assemble_of_in_range h,
    decodeOfEncodeIsTheInstruction i.instr (instr_wellFormed h), names_instr h⟩⟩

/-! ### The words of the low range (R75) -/

theorem decodeLow_option_iff {w : InstrWord} : decodeLow w = .ok .option ↔ w.toNat = 0x002 := by
  unfold decodeLow
  split <;> simp_all

theorem decodeLow_tris_iff {w : InstrWord} {f : BitNum} :
    decodeLow w = .ok (.tris f) ↔ 5 ≤ w.toNat ∧ w.toNat ≤ 7 ∧ f.toNat = w.toNat := by
  unfold decodeLow
  split
  case h_1 => simp [*]
  case h_2 | h_3 | h_4 =>
    simp only [Except.ok.injEq, Instr.tris.injEq, ← BitVec.toNat_inj, *]
    exact ⟨fun h => by simp [← h], fun h => h.2.2.symm⟩
  case h_5 =>
    simp only [imp_false] at *
    simp only [reduceCtorEq, false_iff]
    omega

theorem decodeLow_error_iff {w : InstrWord} :
    decodeLow w = .error (.lowRange w) ↔ w.toNat ≠ 0x002 ∧ ¬(0x005 ≤ w.toNat ∧ w.toNat ≤ 0x007) := by
  unfold decodeLow
  split
  case h_5 =>
    simp only [imp_false] at *
    simp only [true_iff]
    omega
  all_goals simp [*]

end Sys2Proof

namespace Sys2Proof.Machine

theorem fetch_of_lowRange {s : State} {w : InstrWord} (hlow : s.params.range = .low)
    (hpc : s.pc.toNat < s.params.progWords) (hw : decodeLow (progRead s.pc s) = .error (.lowRange w)) :
    fetch s = .error (.lowRangeEncoding w) := by
  simp [fetch, decodeFor, hlow, hpc, hw]

/-- Settles O59: the low-range decoder answer by answer, and a fetch that it rejects refuses the step. -/
theorem lowRangeWordsAreRefused : Obligations.LowRangeWordsAreRefused := by
  refine ⟨fun w => ⟨decodeLow_option_iff, fun f => decodeLow_tris_iff, decodeLow_error_iff⟩,
    fun s hl hlow hr hpc hne hout => ?_⟩
  have hf : fetch s = .error (.lowRangeEncoding (progRead s.pc s)) :=
    fetch_of_lowRange hlow hpc (decodeLow_error_iff.2 ⟨hne, hout⟩)
  calc step s
    _ = runBoundary s := step_of_running hl hr
    _ = .refused (.lowRangeEncoding (progRead s.pc s)) := runBoundary_of_fetch_error (interruptDue_of_low hlow) hf

end Sys2Proof.Machine
end

section
/-! Proofs/Access: the address classes under a launch's check, what a read and a write do at each, and the instructions
with a register operand on plain storage and on STATUS; and the statements of spec/20_memory.md, spec/40_byte_oriented.md
and spec/41_bit_oriented.md they settle. -/

namespace Sys2Proof.Machine

open Sys2Proof.Spec

/-! ### The classes of the addresses (R12) -/

theorem paramsValid_iff {p : Params} : paramsValid p = true ↔
    (1 ≤ p.progWords ∧ p.progWords ≤ 2048) ∧ (5 ≤ p.gprLo.toNat ∧ p.gprLo.toNat ≤ p.gprHi.toNat) ∧
      ∀ m, p.gieMap = some m → 4 < m.addr.toNat ∧ isGpr p m.addr = false := by
  unfold paramsValid
  cases p.gieMap <;> simp [and_assoc]

theorem isGpr_iff {p : Params} {a : DataAddr} : isGpr p a = true ↔ p.gprLo ≤ a ∧ a ≤ p.gprHi := by
  simp [isGpr, BitVec.le_def]

theorem classOf_pcl (p : Params) : classOf p pclAddr = .pcl := rfl

/-- Above 0x04 the two ranges of the parameters decide. -/
theorem classOf_of_gt_four {p : Params} {a : DataAddr} (h : 4 < a.toNat) :
    classOf p a = if isGpr p a then .gpr else (gieBitAt p a).elim .unmodelled .gieReg := by
  have hne : ∀ b : DataAddr, b.toNat ≤ 4 → a ≠ b := fun b hb hab => by subst hab; omega
  unfold classOf
  rw [if_neg (hne _ (by decide)), if_neg (hne _ (by decide)), if_neg (hne _ (by decide)), if_neg (hne _ (by decide))]
  cases gieBitAt p a <;> rfl

theorem classOf_gpr_of_valid {p : Params} {a : DataAddr} (hvalid : paramsValid p = true) (hlo : p.gprLo ≤ a)
    (hhi : a ≤ p.gprHi) : classOf p a = .gpr := by
  obtain ⟨-, ⟨hfive, -⟩, -⟩ := paramsValid_iff.1 hvalid
  have hlo' : p.gprLo.toNat ≤ a.toNat := hlo
  rw [classOf_of_gt_four (by omega), if_pos (isGpr_iff.2 ⟨hlo, hhi⟩)]

theorem classOf_gieReg_of_valid {p : Params} {a : DataAddr} {i : BitNum} (hvalid : paramsValid p = true)
    (hmap : p.gieMap = some ⟨a, i⟩) : classOf p a = .gieReg i := by
  obtain ⟨-, -, hgie⟩ := paramsValid_iff.1 hvalid
  obtain ⟨hfour, hgpr⟩ := hgie _ hmap
  have hbit : gieBitAt p a = some i := by rw [gieBitAt, hmap]; exact if_pos rfl
  rw [classOf_of_gt_four hfour, hgpr, hbit]
  rfl

theorem gieBitAt_eq_none {p : Params} {a : DataAddr} (h : ∀ i, p.gieMap ≠ some ⟨a, i⟩) : gieBitAt p a = none := by
  unfold gieBitAt
  split
  · next m hm =>
    rw [if_neg]
    rintro rfl
    exact h m.bit hm
  · rfl

theorem classOf_unmodelled {p : Params} {a : DataAddr} (h0 : a ≠ indfAddr) (h2 : a ≠ pclAddr) (h3 : a ≠ statusAddr)
    (h4 : a ≠ fsrAddr) (hgpr : ¬(p.gprLo ≤ a ∧ a ≤ p.gprHi)) (hmap : ∀ i, p.gieMap ≠ some ⟨a, i⟩) :
    classOf p a = .unmodelled := by
  unfold classOf
  rw [if_neg h0, if_neg h2, if_neg h3, if_neg h4, if_neg (mt isGpr_iff.1 hgpr), gieBitAt_eq_none hmap]

/-! ### Reads and writes by class (R48, R49) -/

section Access

variable {a : DataAddr} {v : Byte} {i : BitNum} {s : State}

theorem memRead_of_gpr (h : classOf s.params a = .gpr) : memRead a s = .ok (Cells.read s.data a.toNat, s) := by
  simp [memRead, h]

theorem memRead_of_fsr (h : classOf s.params a = .fsr) : memRead a s = .ok (s.fsr, s) := by simp [memRead, h]

theorem memRead_of_pcl (h : classOf s.params a = .pcl) : memRead a s = .error .pclAccess := by simp [memRead, h]

theorem memRead_of_gieReg (h : classOf s.params a = .gieReg i) :
    memRead a s =
      .ok (putBit i s.gie (Config.foreignByte s.foreignReads), { s with foreignReads := s.foreignReads + 1 }) := by
  simp [memRead, h]

theorem memRead_of_unmodelled (h : classOf s.params a = .unmodelled) :
    memRead a s = .error (.unmodelledAddress a) := by
  simp [memRead, h]

theorem memWrite_of_gpr (h : classOf s.params a = .gpr) :
    memWrite a v s = .ok { s with data := Cells.write s.data a.toNat v } := by
  simp [memWrite, h]

theorem memWrite_of_fsr (h : classOf s.params a = .fsr) : memWrite a v s = .ok { s with fsr := v } := by
  simp [memWrite, h]

theorem memWrite_of_status (h : classOf s.params a = .status) : memWrite a v s = writeStatus v s := by
  simp [memWrite, h]

theorem memWrite_of_pcl (h : classOf s.params a = .pcl) : memWrite a v s = .error .pclAccess := by simp [memWrite, h]

theorem memWrite_of_gieReg (h : classOf s.params a = .gieReg i) :
    memWrite a v s = .ok { s with gie := testBit i v, foreignWrites := clearBit i v :: s.foreignWrites } := by
  simp [memWrite, h]

theorem memWrite_of_unmodelled (h : classOf s.params a = .unmodelled) :
    memWrite a v s = .error (.unmodelledAddress a) := by
  simp [memWrite, h]

end Access

/-- Settles O9: the class of each address, and the read at that class. -/
theorem readGivesWhatTheAddressClassSays : Obligations.ReadGivesWhatTheAddressClassSays := by
  intro s a hvalid
  refine ⟨fun hlo hhi => memRead_of_gpr (classOf_gpr_of_valid hvalid hlo hhi),
    fun ha => memRead_of_fsr (classOf_fsr.2 ha), fun ha => memRead_of_status (classOf_status.2 ha),
    fun ha => memRead_of_pcl (ha ▸ classOf_pcl s.params), fun i hmap => ?gieReg,
    fun h0 h2 h3 h4 hgpr hmap => memRead_of_unmodelled (classOf_unmodelled h0 h2 h3 h4 hgpr hmap)⟩
  case gieReg =>
    exact ⟨_, _, memRead_of_gieReg (classOf_gieReg_of_valid hvalid hmap),
      (getLsbD_putBit i s.gie _ i.isLt).trans (if_pos rfl), rfl⟩

/-! ### A write of STATUS (R28) -/

/-- Bits 7:3 of two bytes are the same. -/
theorem highBits_eq_iff {v v' : Byte} :
    v.extractLsb' 3 5 = v'.extractLsb' 3 5 ↔ ∀ j, 3 ≤ j → v.getLsbD j = v'.getLsbD j := by
  constructor
  · intro h j hj
    by_cases hlt : j < 8
    · have hbit : (v.extractLsb' 3 5).getLsbD (j - 3) = (v'.extractLsb' 3 5).getLsbD (j - 3) := by rw [h]
      have hlow : j - 3 < 5 := by omega
      simpa [BitVec.getLsbD_extractLsb', hlow, Nat.add_sub_cancel' hj] using hbit
    · rw [BitVec.getLsbD_of_ge _ _ (Nat.le_of_not_lt hlt), BitVec.getLsbD_of_ge _ _ (Nat.le_of_not_lt hlt)]
  · intro h
    apply BitVec.eq_of_getLsbD_eq
    intro j hj
    rw [BitVec.getLsbD_extractLsb', BitVec.getLsbD_extractLsb', h (3 + j) (Nat.le_add_right 3 j)]

theorem writeStatus_of_same_high {v : Byte} {s : State} (h : ∀ j, 3 ≤ j → v.getLsbD j = s.statusByte.getLsbD j) :
    writeStatus v s = .ok { s with z := v.getLsbD 2, dc := v.getLsbD 1, c := v.getLsbD 0 } :=
  if_pos (highBits_eq_iff.2 h)

theorem writeStatus_of_changed_high {v : Byte} {s : State} {j : Nat} (hj : 3 ≤ j)
    (h : v.getLsbD j ≠ s.statusByte.getLsbD j) : writeStatus v s = .error (.statusWrite v) :=
  if_neg fun hsame => h (highBits_eq_iff.1 hsame j hj)

theorem getLsbD_putBit_of_ne {b : BitNum} {x : Bool} {v : Byte} {j : Nat} (h : j ≠ b.toNat) :
    (putBit b x v).getLsbD j = v.getLsbD j := by
  by_cases hj : j < 8
  · rw [getLsbD_putBit b x v hj, if_neg h]
  · rw [BitVec.getLsbD_of_ge _ _ (Nat.le_of_not_lt hj), BitVec.getLsbD_of_ge _ _ (Nat.le_of_not_lt hj)]

/-- Settles O10: the class of each address, and the write at that class. -/
theorem writeDoesWhatTheAddressClassSays : Obligations.WriteDoesWhatTheAddressClassSays := by
  intro s a v hvalid
  refine ⟨fun hlo hhi => memWrite_of_gpr (classOf_gpr_of_valid hvalid hlo hhi),
    fun ha => memWrite_of_fsr (classOf_fsr.2 ha), fun ha hsame => ?flags, fun ha ⟨j, hj, hchanged⟩ => ?refused,
    fun ha => memWrite_of_pcl (ha ▸ classOf_pcl s.params), fun i hmap => ?gieReg,
    fun h0 h2 h3 h4 hgpr hmap => memWrite_of_unmodelled (classOf_unmodelled h0 h2 h3 h4 hgpr hmap)⟩
  case flags => exact (memWrite_of_status (classOf_status.2 ha)).trans (writeStatus_of_same_high hsame)
  case refused => exact (memWrite_of_status (classOf_status.2 ha)).trans (writeStatus_of_changed_high hj hchanged)
  case gieReg =>
    exact ⟨_, clearBit i v, memWrite_of_gieReg (classOf_gieReg_of_valid hvalid hmap), rfl,
      fun j => getLsbD_putBit_of_ne (x := false)⟩

/-! ### Reading back (R44) -/

theorem memWrite_params {a : DataAddr} {v : Byte} {s t : State} (h : memWrite a v s = .ok t) :
    t.params = s.params := by
  obtain ⟨_, _, _, _, _, _, _, rfl⟩ := (memWrite_frame h).eq
  rfl

/-- The bits that a write of STATUS may not change are those it does not load. -/
theorem statusByte_of_writeStatus {v : Byte} {s t : State} (h : writeStatus v s = .ok t) : t.statusByte = v := by
  obtain ⟨hsame, rfl⟩ := writeStatus_ok.1 h
  apply BitVec.eq_of_getLsbD_eq
  intro j hj
  match j with
  | 0 | 1 | 2 => exact State.statusByte_getLsbD _ _
  | k + 3 =>
    rw [highBits_eq_iff.1 hsame (k + 3) (Nat.le_add_left 3 k), State.statusByte_getLsbD, State.statusByte_getLsbD]
    rfl

/-- Settles O11: each class of storage gives back what was written, and a write at one address is not at another. -/
theorem readBackGivesTheLastValueWritten : Obligations.ReadBackGivesTheLastValueWritten := by
  intro s t a v h
  have hparams : t.params = s.params := memWrite_params h
  refine ⟨?same, fun b hb hgpr => ?other⟩
  case same =>
    rintro (hc | hc | hc)
    · have hdata : t.data = Cells.write s.data a.toNat v := by
        rw [memWrite_of_gpr hc] at h
        cases h
        rfl
      rw [memRead_of_gpr (hparams ▸ hc), hdata, Cells.read_write_same]
    · have hfsr : t.fsr = v := by
        rw [memWrite_of_fsr hc] at h
        cases h
        rfl
      rw [memRead_of_fsr (hparams ▸ hc), hfsr]
    · rw [memWrite_of_status hc] at h
      rw [memRead_of_status (hparams ▸ hc), statusByte_of_writeStatus h]
  case other =>
    rw [memRead_of_gpr (hparams ▸ hgpr), (memWrite_frame h).data b.toNat (mt BitVec.eq_of_toNat_eq hb)]

/-! ### BCF and BSF on STATUS (R28, R100) -/

section StatusBits

variable {b : BitNum} {x : Bool} {s : State}

theorem bitStep_status_of_write {t : State} (h : writeStatus (putBit b x s.statusByte) s = .ok t) :
    bitStep (putBit b x) statusAddr s = .ok t.advance := by
  have hc : classOf s.params statusAddr = .status := classOf_status.2 rfl
  exact bitStep_ok.2 ⟨statusAddr, s.statusByte, s, t, effectiveAddress_direct (by decide), memRead_of_status hc,
    (memWrite_of_status hc).trans h, rfl⟩

/-- The three flags can be set and cleared. -/
theorem bitStep_status_flag (hb : b.toNat < 3) : bitStep (putBit b x) statusAddr s = .ok { s with
    z := if 2 = b.toNat then x else s.z, dc := if 1 = b.toNat then x else s.dc, c := if 0 = b.toNat then x else s.c,
    pc := s.pc + 1 } := by
  have hhigh : ∀ j, 3 ≤ j → (putBit b x s.statusByte).getLsbD j = s.statusByte.getLsbD j := fun j hj =>
    getLsbD_putBit_of_ne (by omega)
  rw [bitStep_status_of_write (writeStatus_of_same_high hhigh), getLsbD_putBit b x _ (by decide),
    getLsbD_putBit b x _ (by decide), getLsbD_putBit b x _ (by decide), s.statusByte_getLsbD, s.statusByte_getLsbD,
    s.statusByte_getLsbD]
  rfl

theorem putBit_of_getLsbD {v : Byte} (h : v.getLsbD b.toNat = x) : putBit b x v = v :=
  (eq_putBit fun j _ => by split <;> simp_all).symm

theorem writeStatus_statusByte (s : State) : writeStatus s.statusByte s = .ok s := by
  rw [writeStatus_of_same_high fun _ _ => rfl, s.statusByte_getLsbD, s.statusByte_getLsbD, s.statusByte_getLsbD]
  rfl

/-- A bit that already has the value is no change of STATUS. -/
theorem bitStep_status_same (h : s.statusByte.getLsbD b.toNat = x) :
    bitStep (putBit b x) statusAddr s = .ok s.advance :=
  bitStep_status_of_write (by rw [putBit_of_getLsbD h, writeStatus_statusByte])

/-- Of bits 3 to 7 none can be changed. -/
theorem bitStep_status_refused (hb : 3 ≤ b.toNat) (h : s.statusByte.getLsbD b.toNat ≠ x) :
    bitStep (putBit b x) statusAddr s = .error (.statusWrite (putBit b x s.statusByte)) := by
  have hc : classOf s.params statusAddr = .status := classOf_status.2 rfl
  have hchanged : (putBit b x s.statusByte).getLsbD b.toNat ≠ s.statusByte.getLsbD b.toNat := by
    rw [getLsbD_putBit b x _ b.isLt, if_pos rfl]
    exact h.symm
  exact bitStep_of_write_error (effectiveAddress_direct (by decide)) (memRead_of_status hc)
    ((memWrite_of_status hc).trans (writeStatus_of_changed_high hb hchanged))

theorem exec_bsf (f : DataAddr) (b : BitNum) (s : State) :
    exec (.bsf f b) s = settle (bitStep (putBit b true) f s) := rfl

theorem exec_bcf (f : DataAddr) (b : BitNum) (s : State) :
    exec (.bcf f b) s = settle (bitStep (putBit b false) f s) := rfl

theorem exec_at_set_status_bit (hb : 3 ≤ b.toNat) (h : s.statusByte.getLsbD b.toNat = true) :
    exec (.bsf statusAddr b) s = .next s.advance ∧
      exec (.bcf statusAddr b) s = .refused (.statusWrite (clearBit b s.statusByte)) := by
  rw [exec_bsf, exec_bcf, bitStep_status_same h, bitStep_status_refused hb (by simp [h])]
  exact ⟨rfl, rfl⟩

theorem exec_at_clear_status_bit (hb : 3 ≤ b.toNat) (h : s.statusByte.getLsbD b.toNat = false) :
    exec (.bcf statusAddr b) s = .next s.advance ∧
      exec (.bsf statusAddr b) s = .refused (.statusWrite (setBit b s.statusByte)) := by
  rw [exec_bsf, exec_bcf, bitStep_status_same h, bitStep_status_refused hb (by simp [h])]
  exact ⟨rfl, rfl⟩

theorem exec_bsf_flag (hb : b.toNat < 3) : exec (.bsf statusAddr b) s = .next { s with
    z := if 2 = b.toNat then true else s.z, dc := if 1 = b.toNat then true else s.dc,
    c := if 0 = b.toNat then true else s.c, pc := s.pc + 1 } := by
  rw [exec_bsf, bitStep_status_flag hb, settle_ok]

theorem exec_bcf_flag (hb : b.toNat < 3) : exec (.bcf statusAddr b) s = .next { s with
    z := if 2 = b.toNat then false else s.z, dc := if 1 = b.toNat then false else s.dc,
    c := if 0 = b.toNat then false else s.c, pc := s.pc + 1 } := by
  rw [exec_bcf, bitStep_status_flag hb, settle_ok]

end StatusBits

/-- Settles O24: bits 0 to 2 are flags; what happens at a bit above them depends on its value in STATUS alone. -/
theorem bitInstructionsOnStatus : Obligations.BitInstructionsOnStatus := by
  intro s
  have hbit := s.statusByte_getLsbD
  exact ⟨exec_bsf_flag (b := 0) (by decide), exec_bcf_flag (b := 0) (by decide),
    exec_bsf_flag (b := 1) (by decide), exec_bcf_flag (b := 1) (by decide),
    exec_bsf_flag (b := 2) (by decide), exec_bcf_flag (b := 2) (by decide),
    fun h => exec_at_set_status_bit (b := 3) (by decide) ((hbit 3).trans h),
    fun h => exec_at_clear_status_bit (b := 3) (by decide) ((hbit 3).trans h),
    fun h => exec_at_set_status_bit (b := 4) (by decide) ((hbit 4).trans h),
    fun h => exec_at_clear_status_bit (b := 4) (by decide) ((hbit 4).trans h),
    exec_at_clear_status_bit (b := 5) (by decide) (hbit 5), exec_at_clear_status_bit (b := 6) (by decide) (hbit 6),
    exec_at_clear_status_bit (b := 7) (by decide) (hbit 7)⟩

/-! ### Instructions on plain storage (R44) -/

section PlainStorage

variable {b : Bool} {op : Byte → AluResult} {x : AluResult} {f a : DataAddr} {d : Dest} {s : State}

theorem memRead_of_plain (h : classOf s.params a = .gpr ∨ classOf s.params a = .fsr) :
    ∃ v, memRead a s = .ok (v, s) :=
  h.elim (fun h => ⟨_, memRead_of_gpr h⟩) fun h => ⟨_, memRead_of_fsr h⟩

theorem memWrite_of_plain (v : Byte) (h : classOf s.params a = .gpr ∨ classOf s.params a = .fsr) :
    ∃ t, memWrite a v s = .ok t :=
  h.elim (fun h => ⟨_, memWrite_of_gpr h⟩) fun h => ⟨_, memWrite_of_fsr h⟩

theorem ne_status_of_plain (h : classOf s.params a = .gpr ∨ classOf s.params a = .fsr) : a ≠ statusAddr := by
  rintro rfl
  rw [classOf_status.2 rfl] at h
  simp at h

variable (haddr : effectiveAddress f s = .ok a) (hplain : classOf s.params a = .gpr ∨ classOf s.params a = .fsr)
include haddr hplain

theorem fileOp_completes : ∃ r t, fileOp b op f d s = .ok (r, t) := by
  obtain ⟨v, hread⟩ := memRead_of_plain hplain
  have hop : operandAddress b f d s = .ok a := operandAddress_ok.2 ⟨haddr, fun _ _ => ne_status_of_plain hplain⟩
  have hwrite : ∃ t, writeDest d a (op v).value s = .ok t := by
    cases d with
    | w => exact ⟨_, rfl⟩
    | f => exact memWrite_of_plain _ hplain
  obtain ⟨t, hwrite⟩ := hwrite
  exact ⟨_, _, fileOp_ok.2 ⟨a, v, s, t, hop, hread, hwrite, rfl, rfl⟩⟩

theorem fileStep_completes : ∃ t, fileStep b op f d s = .ok t := by
  obtain ⟨r, u, h⟩ := fileOp_completes haddr hplain
  exact ⟨_, fileStep_ok.2 ⟨r, u, h, rfl⟩⟩

theorem fileSkip_completes {g : Byte → Byte} : ∃ t, fileSkip g f d s = .ok t := by
  obtain ⟨r, u, h⟩ := fileOp_completes haddr hplain
  exact ⟨_, fileSkip_ok.2 ⟨r, u, h, rfl⟩⟩

theorem fileStore_completes : ∃ t, fileStore b x f s = .ok t := by
  obtain ⟨u, hwrite⟩ := memWrite_of_plain x.value hplain
  exact ⟨_, fileStore_ok.2 ⟨a, u, storeAddress_ok.2 ⟨haddr, fun _ => ne_status_of_plain hplain⟩, hwrite, rfl⟩⟩

theorem bitStep_completes {g : Byte → Byte} : ∃ t, bitStep g f s = .ok t := by
  obtain ⟨v, hread⟩ := memRead_of_plain hplain
  obtain ⟨u, hwrite⟩ := memWrite_of_plain (g v) hplain
  exact ⟨_, bitStep_ok.2 ⟨a, v, s, u, haddr, hread, hwrite, rfl⟩⟩

theorem bitSkip_completes {g : Byte → Bool} : ∃ t, bitSkip g f s = .ok t := by
  obtain ⟨v, hread⟩ := memRead_of_plain hplain
  exact ⟨_, bitSkip_ok.2 ⟨a, v, s, haddr, hread, rfl⟩⟩

end PlainStorage

theorem settle_completes {x : Except Refusal State} (h : ∃ t, x = .ok t) : ∃ t, settle x = .next t :=
  h.imp fun _ => settle_eq_next.2

/-- Settles O20: every shape of instruction with a register operand completes there. -/
theorem fileInstructionsCompleteOnPlainStorage : Obligations.FileInstructionsCompleteOnPlainStorage := by
  intro i s f a hfield haddr hplain
  cases i with
  | addwf g d | andwf g d | comf g d | decf g d | incf g d | iorwf g d | movf g d | rlf g d | rrf g d | subwf g d
  | swapf g d | xorwf g d =>
    cases hfield
    exact settle_completes (fileStep_completes haddr hplain)
  | decfsz g d | incfsz g d =>
    cases hfield
    exact settle_completes (fileSkip_completes haddr hplain)
  | clrf g | movwf g =>
    cases hfield
    exact settle_completes (fileStore_completes haddr hplain)
  | bcf g b | bsf g b =>
    cases hfield
    exact settle_completes (bitStep_completes haddr hplain)
  | btfsc g b | btfss g b =>
    cases hfield
    exact settle_completes (bitSkip_completes haddr hplain)
  | _ => cases hfield

/-! ### RLF and then RRF (R94, R95) -/

/-- A format B instruction with `d = 1` on a general-purpose register addressed directly. -/
theorem exec_formatB_on_gpr {mk : DataAddr → Dest → Instr} {op : BitVec 6} {b : Bool} {value : State → Byte → Byte}
    {flags : State → Byte → State → State} {pcAfter : State → Byte → ProgAddr}
    (h : FormatB mk op b value flags pcAfter) {s : State} {f : DataAddr} (hf : f ≠ indfAddr)
    (hgpr : classOf s.params f = .gpr) {v : Byte} (hv : Cells.read s.data f.toNat = v) :
    exec (mk f .f) s =
      .next { flags s v { s with data := Cells.write s.data f.toNat (value s v) } with pc := pcAfter s v } := by
  obtain ⟨-, -, hstore, -⟩ := h
  exact hstore s s _ f f v (effectiveAddress_direct hf) (hv ▸ memRead_of_gpr hgpr)
    (fun _ => ne_status_of_plain (.inl hgpr)) (memWrite_of_gpr hgpr)

section Rotations

variable {s t : State} {f : DataAddr} {v : Byte}

theorem exec_rlf_on_gpr (hf : f ≠ indfAddr) (hgpr : classOf s.params f = .gpr) (hv : Cells.read s.data f.toNat = v)
    (h : exec (.rlf f .f) s = .next t) : t.params = s.params ∧ t.c = decide (128 ≤ v.toNat) ∧
      t.data = Cells.write s.data f.toNat (.ofNat 8 (2 * v.toNat + s.c.toNat)) := by
  obtain ⟨hrlf, -⟩ := rotatesGoThroughCarry
  rw [Host.Outcome.next.inj (h.symm.trans (exec_formatB_on_gpr hrlf hf hgpr hv))]
  exact ⟨rfl, rfl, rfl⟩

theorem exec_rrf_on_gpr (hf : f ≠ indfAddr) (hgpr : classOf s.params f = .gpr) (hv : Cells.read s.data f.toNat = v)
    (h : exec (.rrf f .f) s = .next t) : t.c = decide (v.toNat % 2 = 1) ∧
      t.data = Cells.write s.data f.toNat (.ofNat 8 (v.toNat / 2 + 128 * s.c.toNat)) := by
  obtain ⟨-, hrrf⟩ := rotatesGoThroughCarry
  rw [Host.Outcome.next.inj (h.symm.trans (exec_formatB_on_gpr hrrf hf hgpr hv))]
  exact ⟨rfl, rfl⟩

end Rotations

/-- The bit that RLF brings in at the bottom is the one RRF takes out, and the one it takes out at the top comes back. -/
theorem rotate_back (v : Byte) (c : Bool) :
    decide ((BitVec.ofNat 8 (2 * v.toNat + c.toNat)).toNat % 2 = 1) = c ∧
    BitVec.ofNat 8 ((BitVec.ofNat 8 (2 * v.toNat + c.toNat)).toNat / 2 + 128 * (decide (128 ≤ v.toNat)).toNat) = v := by
  constructor
  · cases c <;> simp
  · apply BitVec.eq_of_toNat_eq
    have hv : v.toNat < 256 := v.isLt
    have hc := c.toNat_lt
    by_cases htop : 128 ≤ v.toNat <;> simp [htop] <;> omega

/-- Settles O22: the second rotation undoes the first at the register, and neither changes another byte. -/
theorem rotateLeftThenRightIsIdentity : Obligations.RotateLeftThenRightIsIdentity := by
  intro s t u f hf hgpr hleft hright
  obtain ⟨hparams, hout, hdata⟩ := exec_rlf_on_gpr hf hgpr rfl hleft
  have hrotated := (congrArg (Cells.read · f.toNat) hdata).trans (Cells.read_write_same _ _ _)
  obtain ⟨hcarry, hdata'⟩ := exec_rrf_on_gpr hf (hparams ▸ hgpr) hrotated hright
  obtain ⟨hbottom, hback⟩ := rotate_back (Cells.read s.data f.toNat) s.c
  refine ⟨hcarry.trans hbottom, fun x => ?_⟩
  rw [hdata', hout, hback]
  by_cases hx : x = f.toNat
  · rw [hx, Cells.read_write_same]
  · rw [Cells.read_write_other _ _ _ _ hx, hdata, Cells.read_write_other _ _ _ _ hx]

end Sys2Proof.Machine
end

section
/-! Proofs/Frames: once for all instructions, the ways one completes; and from it the frame of every instruction, field by
field; and the remaining statement of spec/45_low_range.md. -/

namespace Sys2Proof.Machine

open Sys2Proof.Spec

/-! ### What an instruction may assign (R16, R37, R52) -/

theorem storeTarget_eq_some_iff {i : Instr} {s : State} {a : DataAddr} :
    storeTarget i s = some a ↔ ∃ f, storedField i = some f ∧ effectiveAddress f s = .ok a := by
  unfold storeTarget
  cases storedField i with
  | none => simp
  | some f => cases h : effectiveAddress f s <;> simp [Except.toOption, h]

/-- The flags an operation assigns are among those the instruction lists. -/
structure AluResult.ListedBy (x : AluResult) (i : Instr) : Prop where
  c : listsC i = false → x.c = none
  dc : listsDC i = false → x.dc = none
  z : listsZ i = false → x.z = none

theorem AluResult.plain_listedBy (r : Byte) (i : Instr) : (AluResult.plain r).ListedBy i :=
  ⟨fun _ => rfl, fun _ => rfl, fun _ => rfl⟩

theorem AluResult.testZ_listedBy {i : Instr} (r : Byte) (hz : listsZ i = true) : (AluResult.testZ r).ListedBy i :=
  ⟨fun _ => rfl, fun _ => rfl, fun h => absurd (hz.symm.trans h) nofun⟩

theorem AluResult.rotated_listedBy {i : Instr} (r : Byte) (x : Bool) (hc : listsC i = true) :
    (AluResult.rotated r x).ListedBy i :=
  ⟨fun h => absurd (hc.symm.trans h) nofun, fun _ => rfl, fun _ => rfl⟩

theorem AluResult.arith_listedBy {i : Instr} (x : Sum8) (hc : listsC i = true) (hdc : listsDC i = true)
    (hz : listsZ i = true) : (AluResult.arith x).ListedBy i :=
  ⟨fun h => absurd (hc.symm.trans h) nofun, fun h => absurd (hdc.symm.trans h) nofun,
    fun h => absurd (hz.symm.trans h) nofun⟩

/-- Where an instruction that is no transfer goes on: at the next one, or past it by a skip. -/
def GoesOn (i : Instr) (s : State) (p : ProgAddr) : Prop := p = s.pc + 1 ∨ (isSkip i = true ∧ p = s.pc + 2)

theorem goesOn_skipIf {i : Instr} {s u : State} {taken : Bool} (hskip : isSkip i = true) (hpc : u.pc = s.pc) :
    GoesOn i s (u.skipIf taken).pc := by
  rw [State.skipIf_pc, hpc]
  cases taken with
  | false => exact .inl rfl
  | true => exact .inr ⟨hskip, rfl⟩

theorem isTransfer_of_isSkip {i : Instr} (h : isSkip i = true) : isTransfer i = false := by
  cases i with
  | btfsc | btfss | decfsz | incfsz => rfl
  | _ => cases h

/-- The ways an instruction takes a state to the next one. A read before the store, or before the result goes to W, can
have taken a free value. -/
inductive Completion : Instr → State → State → Prop where
  /-- It stores at its effective address, then assigns flags. -/
  | store {i : Instr} {s u : State} {k : Nat} {a : DataAddr} {x : AluResult} {p : ProgAddr}
      (target : storeTarget i s = some a) (write : WriteFrame a { s with foreignReads := k } u) (flags : x.ListedBy i)
      (goesOn : GoesOn i s p) : Completion i s { u.withFlags x with pc := p }
  /-- Its result goes to W, then it assigns flags. -/
  | toW {i : Instr} {s : State} {k : Nat} {v : Byte} {x : AluResult} {p : ProgAddr} (writes : writesW i = true)
      (flags : x.ListedBy i) (goesOn : GoesOn i s p) :
      Completion i s { ({ s with foreignReads := k, w := v } : State).withFlags x with pc := p }
  /-- It writes nothing. -/
  | plain {i : Instr} {s : State} {k : Nat} {p : ProgAddr} (goesOn : GoesOn i s p) :
      Completion i s { s with foreignReads := k, pc := p }
  | goto {s : State} (k p : ProgAddr) : Completion (.goto k) s { s with pc := p }
  | call {s : State} (k p : ProgAddr) (room : s.stack.length < stackDepth s.params.range) :
      Completion (.call k) s { s with stack := (s.pc + 1) :: s.stack, pc := p }
  | ret {s : State} {p : ProgAddr} {rest : List ProgAddr} (stack : s.stack = p :: rest) :
      Completion .ret s { s with stack := rest, pc := p }
  | retlw {s : State} {p : ProgAddr} {rest : List ProgAddr} (k : Byte) (stack : s.stack = p :: rest) :
      Completion (.retlw k) s { s with stack := rest, w := k, pc := p }
  | retfie {s : State} {p : ProgAddr} {rest : List ProgAddr} (stack : s.stack = p :: rest) :
      Completion .retfie s { s with stack := rest, gie := true, pc := p }
  | clrwdt {s : State} : Completion .clrwdt s (s.clearWatchdog true).advance
  | sleep {s : State} : Completion .sleep s { (s.clearWatchdog false).advance with run := .sleeping }
  | option {s : State} : Completion .option s { s with option := s.w, pc := s.pc + 1 }
  | trisA {s : State} : Completion (.tris 5) s { s with trisa := s.w, pc := s.pc + 1 }
  | trisB {s : State} : Completion (.tris 6) s { s with trisb := s.w, pc := s.pc + 1 }
  | trisC {s : State} : Completion (.tris 7) s { s with trisc := s.w, pc := s.pc + 1 }

/-! ### How each shape of instruction completes -/

section Shapes

variable {i : Instr} {b : Bool} {op : Byte → AluResult} {x : AluResult} {f : DataAddr} {d : Dest} {s t u : State}
  {r : Byte} {p : ProgAddr}

theorem writeDest_pc {a : DataAddr} {v : Byte} (h : writeDest d a v s = .ok t) : t.pc = s.pc := by
  rcases writeDest_ok h with ⟨-, rfl⟩ | ⟨-, h⟩
  · rfl
  · exact memWrite_pc h

theorem fileOp_pc (h : fileOp b op f d s = .ok (r, u)) : u.pc = s.pc := by
  obtain ⟨a, v, s1, s2, -, hread, hwrite, -, rfl⟩ := fileOp_ok.1 h
  exact (writeDest_pc hwrite).trans (memRead_pc hread)

theorem completion_of_fileOp (h : fileOp b op f d s = .ok (r, u)) (hstored : d = .f → storedField i = some f)
    (hw : d = .w → writesW i = true) (hflags : ∀ v, (op v).ListedBy i) (hnext : GoesOn i s p) :
    Completion i s { u with pc := p } := by
  obtain ⟨a, v, s1, s2, ha, hread, hwrite, -, rfl⟩ := fileOp_ok.1 h
  obtain ⟨k, rfl⟩ := memRead_state hread
  obtain ⟨haddr, -⟩ := operandAddress_ok.1 ha
  rcases writeDest_ok hwrite with ⟨hd, rfl⟩ | ⟨hd, hwrite⟩
  · exact .toW (hw hd) (hflags v) hnext
  · exact .store (storeTarget_eq_some_iff.2 ⟨f, hstored hd, haddr⟩) (memWrite_frame hwrite) (hflags v) hnext

theorem completion_of_fileStep (h : fileStep b op f d s = .ok t) (hflags : ∀ v, (op v).ListedBy i)
    (hstored : d = .f → storedField i = some f) (hw : d = .w → writesW i = true) : Completion i s t := by
  obtain ⟨r, u, hop, rfl⟩ := fileStep_ok.1 h
  exact completion_of_fileOp hop hstored hw hflags (.inl (congrArg (· + 1) (fileOp_pc hop)))

theorem completion_of_fileSkip {g : Byte → Byte} (h : fileSkip g f d s = .ok t) (hskip : isSkip i = true)
    (hstored : d = .f → storedField i = some f) (hw : d = .w → writesW i = true) : Completion i s t := by
  obtain ⟨r, u, hop, rfl⟩ := fileSkip_ok.1 h
  exact completion_of_fileOp hop hstored hw (fun v => AluResult.plain_listedBy (g v) i)
    (goesOn_skipIf hskip (fileOp_pc hop))

theorem completion_of_fileStore (h : fileStore b x f s = .ok t) (hflags : x.ListedBy i)
    (hstored : storedField i = some f) : Completion i s t := by
  obtain ⟨a, u, ha, hwrite, rfl⟩ := fileStore_ok.1 h
  obtain ⟨haddr, -⟩ := storeAddress_ok.1 ha
  have hpc : u.pc = s.pc := memWrite_pc hwrite
  exact .store (k := s.foreignReads) (storeTarget_eq_some_iff.2 ⟨f, hstored, haddr⟩) (memWrite_frame hwrite) hflags
    (.inl (congrArg (· + 1) hpc))

theorem completion_of_bitStep {g : Byte → Byte} (h : bitStep g f s = .ok t) (hstored : storedField i = some f) :
    Completion i s t := by
  obtain ⟨a, v, s1, s2, haddr, hread, hwrite, rfl⟩ := bitStep_ok.1 h
  have hpc : s2.pc = s.pc := (memWrite_pc hwrite).trans (memRead_pc hread)
  obtain ⟨k, rfl⟩ := memRead_state hread
  exact .store (storeTarget_eq_some_iff.2 ⟨f, hstored, haddr⟩) (memWrite_frame hwrite) (AluResult.plain_listedBy v i)
    (.inl (congrArg (· + 1) hpc))

theorem completion_of_bitSkip {g : Byte → Bool} (h : bitSkip g f s = .ok t) (hskip : isSkip i = true) :
    Completion i s t := by
  obtain ⟨a, v, s1, -, hread, rfl⟩ := bitSkip_ok.1 h
  have hpc : s1.pc = s.pc := memRead_pc hread
  obtain ⟨k, rfl⟩ := memRead_state hread
  exact .plain (goesOn_skipIf hskip hpc)

theorem completion_of_literalStep (hw : writesW i = true) (hflags : x.ListedBy i) :
    Completion i s (literalStep x s) :=
  .toW (k := s.foreignReads) hw hflags (.inl rfl)

end Shapes

/-! ### OPTION and TRIS (R136, R137) -/

theorem exec_option (s : State) : exec .option s = .next { s with option := s.w, pc := s.pc + 1 } := rfl
theorem exec_trisA (s : State) : exec (.tris 5) s = .next { s with trisa := s.w, pc := s.pc + 1 } := rfl
theorem exec_trisB (s : State) : exec (.tris 6) s = .next { s with trisb := s.w, pc := s.pc + 1 } := rfl
theorem exec_trisC (s : State) : exec (.tris 7) s = .next { s with trisc := s.w, pc := s.pc + 1 } := rfl

theorem tris_operand_cases : ∀ f : BitNum, f = 5 ∨ f = 6 ∨ f = 7 ∨ f.toNat < 5 := by decide

theorem exec_tris_of_lt_five {f : BitNum} (h : f.toNat < 5) (s : State) :
    exec (.tris f) s = .refused (.trisOperand f) := by
  simp only [exec, execTris]
  split <;> simp_all

/-- Settles O34: each register by its instruction. -/
theorem optionAndTrisLoadTheirRegister : Obligations.OptionAndTrisLoadTheirRegister := fun s =>
  ⟨exec_option s, exec_trisA s, exec_trisB s, exec_trisC s, fun _ h => exec_tris_of_lt_five h s⟩

/-! ### Every instruction -/

/-- Every instruction that completes does so in one of these ways. -/
theorem exec_completion {i : Instr} {s t : State} (h : exec i s = .next t) : Completion i s t := by
  cases i with
  | addwf f d | subwf f d =>
    exact completion_of_fileStep (settle_eq_next.1 h) (fun v => AluResult.arith_listedBy _ rfl rfl rfl)
      (fun hd => hd ▸ rfl) (fun hd => hd ▸ rfl)
  | andwf f d | comf f d | decf f d | incf f d | iorwf f d | movf f d | xorwf f d =>
    exact completion_of_fileStep (settle_eq_next.1 h) (fun v => AluResult.testZ_listedBy _ rfl)
      (fun hd => hd ▸ rfl) (fun hd => hd ▸ rfl)
  | rlf f d | rrf f d =>
    exact completion_of_fileStep (settle_eq_next.1 h) (fun v => AluResult.rotated_listedBy _ _ rfl)
      (fun hd => hd ▸ rfl) (fun hd => hd ▸ rfl)
  | swapf f d =>
    exact completion_of_fileStep (settle_eq_next.1 h) (fun v => AluResult.plain_listedBy _ _)
      (fun hd => hd ▸ rfl) (fun hd => hd ▸ rfl)
  | decfsz f d | incfsz f d =>
    exact completion_of_fileSkip (settle_eq_next.1 h) rfl (fun hd => hd ▸ rfl) (fun hd => hd ▸ rfl)
  | clrf f => exact completion_of_fileStore (settle_eq_next.1 h) (AluResult.testZ_listedBy _ rfl) rfl
  | movwf f => exact completion_of_fileStore (settle_eq_next.1 h) (AluResult.plain_listedBy _ _) rfl
  | bcf f b | bsf f b => exact completion_of_bitStep (settle_eq_next.1 h) rfl
  | btfsc f b | btfss f b => exact completion_of_bitSkip (settle_eq_next.1 h) rfl
  | addlw k | sublw k =>
    cases h
    exact completion_of_literalStep rfl (AluResult.arith_listedBy _ rfl rfl rfl)
  | andlw k | iorlw k | xorlw k | clrw =>
    cases h
    exact completion_of_literalStep rfl (AluResult.testZ_listedBy _ rfl)
  | movlw k =>
    cases h
    exact completion_of_literalStep rfl (AluResult.plain_listedBy _ _)
  | nop =>
    cases h
    exact .plain (k := s.foreignReads) (.inl rfl)
  | goto k =>
    cases h
    exact .goto k _
  | call k =>
    obtain ⟨u, hpush, hu⟩ := bind_eq_ok.1 (settle_eq_next.1 h)
    obtain ⟨hroom, rfl⟩ := push_ok.1 hpush
    cases hu
    exact .call k _ hroom
  | ret =>
    obtain ⟨⟨p, u⟩, hpop, hu⟩ := bind_eq_ok.1 (settle_eq_next.1 h)
    obtain ⟨rest, hstack, rfl⟩ := pop_ok.1 hpop
    cases hu
    exact .ret hstack
  | retlw k =>
    obtain ⟨⟨p, u⟩, hpop, hu⟩ := bind_eq_ok.1 (settle_eq_next.1 h)
    obtain ⟨rest, hstack, rfl⟩ := pop_ok.1 hpop
    cases hu
    exact .retlw k hstack
  | retfie =>
    obtain ⟨p, rest, hstack, rfl⟩ := returnFromInterrupt_ok.1 (settle_eq_next.1 h)
    exact .retfie hstack
  | clrwdt =>
    cases h
    exact .clrwdt
  | sleep =>
    cases h
    exact .sleep
  | option =>
    cases h
    exact .option
  | tris f =>
    rcases tris_operand_cases f with rfl | rfl | rfl | hf
    · cases h
      exact .trisA
    · cases h
      exact .trisB
    · cases h
      exact .trisC
    · rw [exec_tris_of_lt_five hf] at h
      cases h

/-! ### The frames, field by field (R16, R22 to R26, R29 to R32, R37, R42) -/

/-- Settles O51: only a store changes a byte, and only the one at its target. -/
theorem dataFrameOfEveryInstruction : Obligations.DataFrameOfEveryInstruction := by
  intro i s t h x hx
  cases exec_completion h with
  | store target write flags goesOn => exact write.data x (hx _ target)
  | _ => rfl

/-- Settles O52: an operation assigns listed flags only, and a store elsewhere than at STATUS none. -/
theorem flagFrameOfEveryInstruction : Obligations.FlagFrameOfEveryInstruction := by
  intro i s t h
  cases exec_completion h with
  | store target write flags goesOn =>
    have hkept := fun (h : storeTarget i s ≠ some statusAddr) => write.flags fun ha => h (ha ▸ target)
    refine ⟨fun hl h => ?c, fun hl h => ?dc, fun hl h => ?z, fun _ _ => ?active⟩
    case c =>
      obtain ⟨-, -, hc⟩ := hkept h
      simpa [flags.c hl] using hc
    case dc =>
      obtain ⟨-, hdc, -⟩ := hkept h
      simpa [flags.dc hl] using hdc
    case z =>
      obtain ⟨hz, -, -⟩ := hkept h
      simpa [flags.z hl] using hz
    case active =>
      obtain ⟨_, _, _, _, _, _, _, rfl⟩ := write.eq
      exact ⟨rfl, rfl⟩
  | toW writes flags goesOn =>
    exact ⟨fun hl _ => by simp [flags.c hl], fun hl _ => by simp [flags.dc hl], fun hl _ => by simp [flags.z hl],
      fun _ _ => ⟨rfl, rfl⟩⟩
  | clrwdt => exact ⟨fun _ _ => rfl, fun _ _ => rfl, fun _ _ => rfl, fun h _ => absurd rfl h⟩
  | sleep => exact ⟨fun _ _ => rfl, fun _ _ => rfl, fun _ _ => rfl, fun _ h => absurd rfl h⟩
  | _ => exact ⟨fun _ _ => rfl, fun _ _ => rfl, fun _ _ => rfl, fun _ _ => ⟨rfl, rfl⟩⟩

/-- Settles O53: a store changes FSR and GIE where it goes to them, and each other register is written by an instruction
of its own. -/
theorem registerFrameOfEveryInstruction : Obligations.RegisterFrameOfEveryInstruction := by
  intro i s t h
  cases exec_completion h with
  | store target write flags goesOn =>
    have hfsr := fun (h : storeTarget i s ≠ some fsrAddr) => write.fsr fun ha => h (ha ▸ target)
    have hgie := fun (h : ∀ a b, storeTarget i s = some a → classOf s.params a ≠ .gieReg b) =>
      write.gie fun b => h _ b target
    obtain ⟨_, _, _, _, _, _, _, rfl⟩ := write.eq
    exact ⟨fun _ => rfl, hfsr, fun _ => hgie, fun _ => rfl, fun _ => rfl, fun _ => rfl, fun _ => rfl, rfl⟩
  | toW writes flags goesOn =>
    exact ⟨fun hw => absurd (writes.symm.trans hw) nofun, fun _ => rfl, fun _ _ => ⟨rfl, rfl⟩, fun _ => rfl,
      fun _ => rfl, fun _ => rfl, fun _ => rfl, rfl⟩
  | _ => simp [writesW]

/-- Settles O54: CALL and the returns say what they do to the stack, CLRWDT and SLEEP to the watchdog; nothing else is
changed by any. -/
theorem controlFrameOfEveryInstruction : Obligations.ControlFrameOfEveryInstruction := by
  intro i s t h
  cases exec_completion h with
  | store target write flags goesOn =>
    obtain ⟨_, _, _, _, _, _, _, rfl⟩ := write.eq
    exact ⟨fun _ => rfl, fun _ _ => ⟨rfl, rfl⟩, fun _ => rfl, rfl, rfl, rfl, rfl⟩
  | toW | plain => exact ⟨fun _ => rfl, fun _ _ => ⟨rfl, rfl⟩, fun _ => rfl, rfl, rfl, rfl, rfl⟩
  | _ => simp [isTransfer]

theorem exec_goesOn {i : Instr} {s t : State} (h : exec i s = .next t) (hi : isTransfer i = false) :
    GoesOn i s t.pc := by
  cases exec_completion h with
  | store _ _ _ goesOn | toW _ _ goesOn | plain goesOn => exact goesOn
  | goto | call | ret | retlw | retfie => cases hi
  | _ => exact .inl rfl

/-- Settles O55: a transfer apart, an instruction goes on at the next one or skips it. -/
theorem pcAdvancesUnlessTransfer : Obligations.PcAdvancesUnlessTransfer := by
  refine fun i s t h => ⟨fun hi hskip => ?next, fun hskip => ?skip⟩
  case next => exact (exec_goesOn h hi).resolve_right fun ⟨hs, _⟩ => absurd (hskip.symm.trans hs) nofun
  case skip => exact (exec_goesOn h (isTransfer_of_isSkip hskip)).imp_right And.right

/-! ### Cycles (R172) -/

theorem cycles_of_sequential {i : Instr} (hmid : i.range = .mid) (htransfer : isTransfer i = false)
    (hskip : isSkip i = false) (s t : State) : cycles i s t = some 1 := by
  cases i with
  | option | tris => cases hmid
  | call | goto | retfie | retlw | ret => cases htransfer
  | btfsc | btfss | decfsz | incfsz => cases hskip
  | _ => rfl

/-- Settles O56: what is no transfer goes on at the next instruction, or takes the skip and its second cycle. -/
theorem cyclesFollowThePc : Obligations.CyclesFollowThePc := by
  refine fun i s t hmid h => ⟨fun hne => ?elsewhere, fun hi => cycles_of_isTransfer hi s t, fun hi hpc => ?next⟩
  case elsewhere =>
    cases hi : isTransfer i with
    | true => exact cycles_of_isTransfer hi s t
    | false =>
      obtain ⟨hskip, hpc⟩ := (exec_goesOn h hi).resolve_left hne
      exact cycles_of_skip_taken hskip hpc
  case next =>
    cases hskip : isSkip i with
    | true => exact cycles_of_skip_not_taken hskip hpc
    | false => exact cycles_of_sequential hmid hi hskip s t

/-! ### The refused store of a flag-affecting instruction (R83) -/

theorem fileStep_of_collision {op : Byte → AluResult} {f : DataAddr} {s : State}
    (h : effectiveAddress f s = .ok statusAddr) : fileStep true op f .f s = .error .statusDestCollision := by
  have hop : fileOp true op f .f s = .error .statusDestCollision :=
    fileOp_of_address_error (storeAddress_of_collision h)
  rw [fileStep, hop, error_bind]

/-- Settles O57: of the instructions that list a flag those with `d = 1` and CLRF store, and all check the address. -/
theorem flagAffectingStoreToStatusIsRefused : Obligations.FlagAffectingStoreToStatusIsRefused := by
  intro i s hlists htarget
  obtain ⟨f, hstored, haddr⟩ := storeTarget_eq_some_iff.1 htarget
  cases i with
  | addwf g d | andwf g d | comf g d | decf g d | incf g d | iorwf g d | movf g d | rlf g d | rrf g d | subwf g d
  | xorwf g d =>
    cases d with
    | w => cases hstored
    | f =>
      cases hstored
      exact settle_eq_refused.2 (fileStep_of_collision haddr)
  | clrf g =>
    cases hstored
    exact settle_eq_refused.2 (fileStore_of_address_error (storeAddress_of_collision haddr))
  | decfsz | incfsz | swapf | bcf | bsf | movwf => simp [listsC, listsDC, listsZ] at hlists
  | _ => cases hstored

end Sys2Proof.Machine
end

section
/-! Proofs/Step: what a step can change, as a boundary while Sleeping, an interrupt entry or an instruction; the invariant
of every reachable state; and the remaining statements of spec/10_state.md, spec/20_memory.md, spec/43_skip_and_branch.md,
spec/60_exceptions.md and spec/70_reset_and_hazards.md. -/

namespace Sys2Proof.Machine

open Sys2Proof.Spec

/-! ### The invariant (R18, R41, R44) -/

/-- The invariant is about the two memories, the parameters and the depth of the stack. -/
theorem Inv.of_same_memories {s t : State} (hinv : Inv s) (hdata : t.data = s.data) (hprog : t.prog = s.prog)
    (hparams : t.params = s.params) (hstack : t.stack.length ≤ stackDepth s.params.range) : Inv t where
  data_wf := hdata ▸ hinv.data_wf
  prog_wf := hprog ▸ hinv.prog_wf
  data_gpr := by
    rw [hdata, hparams]
    exact hinv.data_gpr
  prog_range := hprog ▸ hinv.prog_range
  stack_depth := hparams ▸ hstack

theorem exec_keeps_inv {i : Instr} {s t : State} (hinv : Inv s) (h : exec i s = .next t) : Inv t := by
  have hpopped : ∀ {a : ProgAddr} {rest : List ProgAddr}, s.stack = a :: rest →
      rest.length ≤ stackDepth s.params.range := fun hstack =>
    Nat.le_of_succ_le (by simpa [hstack] using hinv.stack_depth)
  cases exec_completion h with
  | store target write flags goesOn =>
    have hwf := write.data_wf hinv.data_wf
    have hmem := write.data_mem
    obtain ⟨_, _, _, _, _, _, _, rfl⟩ := write.eq
    exact
      { data_wf := hwf
        prog_wf := hinv.prog_wf
        data_gpr := fun e he => (hmem e he).elim (hinv.data_gpr e) fun ⟨haddr, hgpr⟩ => ⟨_, haddr, hgpr⟩
        prog_range := hinv.prog_range
        stack_depth := hinv.stack_depth }
  | call k p room => exact hinv.of_same_memories rfl rfl rfl room
  | ret stack | retlw k stack | retfie stack => exact hinv.of_same_memories rfl rfl rfl (hpopped stack)
  | _ => exact hinv.of_same_memories rfl rfl rfl hinv.stack_depth

/-- Settles O46: an entry pushes where there is room, an instruction keeps the invariant, and asking the environment
concerns none of it. -/
theorem everyStepKeepsTheStateInvariant : Obligations.EveryStepKeepsTheStateInvariant := by
  intro s t hinv h
  obtain ⟨-, ⟨-, rfl⟩ | ⟨-, -, hentry⟩ | ⟨-, -, i, -, hexec⟩⟩ := step_next h
  · exact hinv.of_same_memories rfl rfl rfl hinv.stack_depth
  · obtain ⟨hroom, rfl⟩ := takeInterrupt_ok.1 hentry
    exact hinv.of_same_memories rfl rfl rfl hroom
  · have hasked : Inv s.irqAsked := hinv.of_same_memories rfl rfl rfl hinv.stack_depth
    exact exec_keeps_inv hasked hexec

/-- Settles O45: nothing is listed and nothing is on the stack. -/
theorem resetHasTheStateInvariant : Obligations.ResetHasTheStateInvariant := by
  obtain ⟨hdata, hprog⟩ := reset_memories_wf
  exact ⟨hdata, hprog, nofun, nofun, Nat.zero_le _⟩

/-! ### What every step leaves (R25, R26, R29, R30, R32, R42) -/

/-- Settles O47: by the frame of the instruction. -/
theorem noStepWritesTheProgram : Obligations.NoStepWritesTheProgram := by
  intro s t h
  obtain ⟨-, ⟨-, rfl⟩ | ⟨-, -, hentry⟩ | ⟨-, -, i, -, hexec⟩⟩ := step_next h
  · exact ⟨rfl, rfl⟩
  · obtain ⟨-, rfl⟩ := takeInterrupt_ok.1 hentry
    exact ⟨rfl, rfl⟩
  · obtain ⟨-, -, -, hprog, hparams, -, -⟩ := controlFrameOfEveryInstruction i _ t hexec
    exact ⟨hprog, hparams⟩

theorem classOf_ne_gieReg {p : Params} (h : p.gieMap = none) (a : DataAddr) (b : BitNum) :
    classOf p a ≠ .gieReg b := by
  have hbit : gieBitAt p a = none := by rw [gieBitAt, h]
  unfold classOf
  simp only [hbit]
  repeat' split
  all_goals simp

/-- An instruction that changes GIE without a GIEREG to store to is RETFIE. -/
theorem exec_gie {i : Instr} {s t : State} (hmap : s.params.gieMap = none) (h : exec i s = .next t) :
    t.gie = s.gie ∨ (i = .retfie ∧ t.gie = true) := by
  by_cases hi : i = .retfie
  · subst hi
    obtain ⟨_, _, -, rfl⟩ := returnFromInterrupt_ok.1 (settle_eq_next.1 h)
    exact .inr ⟨rfl, rfl⟩
  · obtain ⟨-, -, hgie, -⟩ := registerFrameOfEveryInstruction i s t h
    exact .inl (hgie hi fun a b _ => classOf_ne_gieReg hmap a b).1

/-- Settles O48: a boundary while Sleeping leaves GIE, an entry is due where it happens, and the rest is `exec_gie`. -/
theorem onlyRetfieSetsGie : Obligations.OnlyRetfieSetsGie := by
  intro s t hmap h
  obtain ⟨-, ⟨-, rfl⟩ | ⟨-, hdue, hentry⟩ | ⟨-, -, i, hfetch, hexec⟩⟩ := step_next h
  · exact ⟨fun h0 h1 => absurd (h0.symm.trans h1) nofun, fun h1 h0 => absurd (h0.symm.trans h1) nofun⟩
  · obtain ⟨-, rfl⟩ := takeInterrupt_ok.1 hentry
    exact ⟨nofun, fun _ _ => hdue⟩
  · rcases exec_gie (s := s.irqAsked) hmap hexec with hsame | ⟨rfl, hset⟩
    · rw [hsame]
      exact ⟨fun h0 h1 => absurd (h0.symm.trans h1) nofun, fun h1 h0 => absurd (h0.symm.trans h1) nofun⟩
    · exact ⟨fun _ _ => hfetch, fun _ h0 => absurd (h0.symm.trans hset) nofun⟩

/-- The fields that only CLRWDT and SLEEP write are the same in two states. -/
def SameWatchdog (s t : State) : Prop := t.nTO = s.nTO ∧ t.nPD = s.nPD ∧ t.wdt = s.wdt ∧ t.wdtps = s.wdtps

theorem exec_sameWatchdog {i : Instr} {s t : State} (h : exec i s = .next t) (hc : i ≠ .clrwdt) (hs : i ≠ .sleep) :
    SameWatchdog s t := by
  obtain ⟨-, -, -, hactive⟩ := flagFrameOfEveryInstruction i s t h
  obtain ⟨-, hwatchdog, -⟩ := controlFrameOfEveryInstruction i s t h
  obtain ⟨hTO, hPD⟩ := hactive hc hs
  obtain ⟨hwdt, hwdtps⟩ := hwatchdog hc hs
  exact ⟨hTO, hPD, hwdt, hwdtps⟩

/-- What a step does to the watchdog: nothing, or CLRWDT's clearing or SLEEP's, which differ in /PD. -/
theorem step_watchdog {s t : State} (h : step s = .next t) :
    SameWatchdog s t ∨
    (t.nTO = true ∧ t.wdt = 0 ∧ t.wdtps = 0 ∧ ((fetch s = .ok .clrwdt ∧ t.nPD = true) ∨ fetch s = .ok .sleep)) := by
  obtain ⟨-, ⟨-, rfl⟩ | ⟨-, -, hentry⟩ | ⟨-, -, i, hfetch, hexec⟩⟩ := step_next h
  · exact .inl ⟨rfl, rfl, rfl, rfl⟩
  · obtain ⟨-, rfl⟩ := takeInterrupt_ok.1 hentry
    exact .inl ⟨rfl, rfl, rfl, rfl⟩
  · by_cases hc : i = .clrwdt
    · subst hc
      cases hexec
      exact .inr ⟨rfl, rfl, rfl, .inl ⟨hfetch, rfl⟩⟩
    · by_cases hs : i = .sleep
      · subst hs
        cases hexec
        exact .inr ⟨rfl, rfl, rfl, .inr hfetch⟩
      · exact .inl (exec_sameWatchdog (s := s.irqAsked) hexec hc hs)

/-- Settles O49: the two cases of `step_watchdog`. -/
theorem watchdogBitsChangeOnlyByClrwdtAndSleep : Obligations.WatchdogBitsChangeOnlyByClrwdtAndSleep := by
  intro s t h
  rcases step_watchdog h with ⟨hTO, hPD, hwdt, hwdtps⟩ | ⟨hTO, hwdt, hwdtps, hfetch⟩
  · exact ⟨.inl hTO, fun h1 h0 => absurd ((h0.symm.trans hPD).trans h1) nofun, fun hchange => by
      simp [hTO, hPD, hwdt, hwdtps] at hchange⟩
  · refine ⟨.inr hTO, fun _ h0 => ?cleared, fun _ => ⟨hfetch.imp_left And.left, hTO, hwdt, hwdtps⟩⟩
    case cleared => exact hfetch.resolve_left fun ⟨_, h1⟩ => absurd (h0.symm.trans h1) nofun

/-- Settles O50: an instruction other than SLEEP leaves the core Running, and a Sleeping core executes none. -/
theorem onlySleepStopsTheCore : Obligations.OnlySleepStopsTheCore := by
  intro s t h
  obtain ⟨-, ⟨hrun, rfl⟩ | ⟨hrun, -, hentry⟩ | ⟨hrun, -, i, hfetch, hexec⟩⟩ := step_next h
  · refine ⟨fun hr => absurd (hrun.symm.trans hr) nofun, fun _ hwoken => ?wakes⟩
    case wakes =>
      cases hnow : s.wake.now with
      | true => rfl
      | false =>
        rw [sleepBoundary_run, hnow, if_neg Bool.false_ne_true] at hwoken
        cases hwoken
  · obtain ⟨-, rfl⟩ := takeInterrupt_ok.1 hentry
    exact ⟨fun hr hs => absurd (hr.symm.trans hs) nofun, fun hs => absurd (hrun.symm.trans hs) nofun⟩
  · refine ⟨fun _ hs => ?sleeps, fun hs => absurd (hrun.symm.trans hs) nofun⟩
    case sleeps =>
      obtain ⟨-, -, hsame, -⟩ := controlFrameOfEveryInstruction i _ t hexec
      by_cases hi : i = .sleep
      · exact hi ▸ hfetch
      · exact absurd (hrun.symm.trans ((hsame hi).symm.trans hs)) nofun

/-! ### The step of a Running core with no interrupt due (R43, R148) -/

theorem runBoundary_of_fetch_ok {s : State} {i : Instr} (hi : interruptDue s = false) (hf : fetch s = .ok i) :
    runBoundary s = exec i s.irqAsked := by
  simp [runBoundary, hi, hf]

theorem step_of_fetch_ok {s : State} {i : Instr} (hl : launchRefusal s.params = none) (hr : s.run = .running)
    (hi : interruptDue s = false) (hf : fetch s = .ok i) : step s = exec i s.irqAsked :=
  (step_of_running hl hr).trans (runBoundary_of_fetch_ok hi hf)

/-- Settles O35: the fetch gives the decoded instruction. -/
theorem stepRunsTheDecodedInstruction : Obligations.StepRunsTheDecodedInstruction :=
  fun _ _ hl hr hi hpc hd => step_of_fetch_ok hl hr hi (fetch_ok.2 ⟨hpc, hd⟩)

/-- Settles O39: a Running core's step is an entry or an instruction, and an entry needs GIE and a request. -/
theorem noInterruptWhileDisabled : Obligations.NoInterruptWhileDisabled := by
  intro s t hrun hdisabled h
  obtain ⟨-, ⟨hsleeping, -⟩ | ⟨-, hdue, -⟩ | ⟨-, -, i, hfetch, hexec⟩⟩ := step_next h
  · exact absurd (hrun.symm.trans hsleeping) nofun
  · obtain ⟨-, -, hgie, hirq⟩ := interruptDue_iff.1 hdue
    rcases hdisabled with h0 | h0
    · exact absurd (hgie.symm.trans h0) nofun
    · exact absurd (hirq.symm.trans h0) nofun
  · exact ⟨i, hfetch, hexec⟩

/-! ### A word loaded from outside (logs 4 and 15) -/

theorem decodeFor_of_decodeTableWord {nbits w : Nat} {i : Instr} (h : decodeTableWord nbits w = some i) :
    decodeFor (tableRange nbits w) (.ofNat 14 w) = .ok i := by
  unfold decodeTableWord at h
  split at h
  · split at h
    · next hi => rw [hi, Option.some.inj h]
    · cases h
  · cases h

section LoadWord

variable (nbits w : Nat) (s : State)

theorem loadWord_params : (loadWord nbits w s).params =
    { s.params with range := tableRange nbits w, progWords := max s.params.progWords (s.pc.toNat + 1) } := by
  simp only [loadWord]
  split <;> rfl

theorem loadWord_run : (loadWord nbits w s).run = .running := by
  simp only [loadWord]
  split <;> rfl

theorem loadWord_pc : (loadWord nbits w s).pc = s.pc := by
  simp only [loadWord]
  split <;> rfl

theorem loadWord_prog : (loadWord nbits w s).prog = Cells.write s.prog s.pc.toNat (.ofNat 14 w) := by
  simp only [loadWord]
  split <;> rfl

theorem loadWord_interruptDue : interruptDue (loadWord nbits w s) = false := by
  simp only [loadWord]
  split
  · simp [interruptDue]
  · next h => simpa using h

/-- The address is in the program and holds the word. -/
theorem loadWord_fetch {i : Instr} (h : decodeTableWord nbits w = some i) : fetch (loadWord nbits w s) = .ok i := by
  have hword : progRead s.pc (loadWord nbits w s) = .ofNat 14 w := by
    rw [progRead, loadWord_prog, Cells.read_write_same]
  rw [fetch_ok, loadWord_pc, hword, loadWord_params]
  exact ⟨Nat.lt_of_succ_le (Nat.le_max_right _ _), decodeFor_of_decodeTableWord h⟩

end LoadWord

theorem launchRefusal_eq_none_iff {p : Params} :
    launchRefusal p = none ↔ paramsValid p = true ∧ p.wdtEnabled = false := by
  unfold launchRefusal
  split <;> simp_all

/-- Raising PROG_WORDS to an address's successor does not break the launch's condition, nor does the choice of core. -/
theorem loadWord_launch {nbits w : Nat} {s : State} (h : launchRefusal s.params = none) :
    launchRefusal (loadWord nbits w s).params = none := by
  obtain ⟨hvalid, hwdt⟩ := launchRefusal_eq_none_iff.1 h
  obtain ⟨hwords, hgpr, hgie⟩ := paramsValid_iff.1 hvalid
  rw [loadWord_params]
  have hpc : s.pc.toNat < 2048 := s.pc.isLt
  exact launchRefusal_eq_none_iff.2 ⟨paramsValid_iff.2 ⟨by dsimp only; omega, hgpr, hgie⟩, hwdt⟩

/-- Settles O36: the loaded state meets the conditions of a step that runs the fetched instruction. -/
theorem loadedWordIsRunByTheNextStep : Obligations.LoadedWordIsRunByTheNextStep := fun s nbits w _ hl hi =>
  step_of_fetch_ok (loadWord_launch hl) (loadWord_run nbits w s) (loadWord_interruptDue nbits w s)
    (loadWord_fetch nbits w s hi)

/-! ### Calls and interrupts undone by their returns (R121, R124, R149, R152) -/

theorem exec_call_next {k : ProgAddr} {s t : State} (h : exec (.call k) s = .next t) :
    t = { s with stack := (s.pc + 1) :: s.stack, pc := jumpTarget Config.callPage k s } := by
  rcases Nat.lt_or_ge s.stack.length (stackDepth s.params.range) with hroom | hfull
  · rw [exec_call_of_room k hroom] at h
    exact (Host.Outcome.next.inj h).symm
  · rw [exec_call_of_full k hfull] at h
    cases h

/-- Settles O32: RETURN pops what CALL pushed. -/
theorem callThenReturnGoesOnAfterTheCall : Obligations.CallThenReturnGoesOnAfterTheCall := by
  intro s t k h
  have ht := exec_call_next h
  have hpop : pop t = .ok (s.pc + 1, { t with stack := s.stack }) :=
    pop_ok.2 ⟨s.stack, congrArg State.stack ht, rfl⟩
  rw [exec_ret_of_pop hpop, ht]

/-- Settles O40: RETFIE pops the `pc` that the entry pushed and sets the GIE that it cleared. -/
theorem retfieUndoesInterruptEntry : Obligations.RetfieUndoesInterruptEntry := by
  intro s t p hgie h
  obtain ⟨-, rfl⟩ := takeInterrupt_ok.1 h
  have hsame : { s with gie := true } = s := by rw [← hgie]
  rw [exec_retfie_of_pop (pop_ok.2 ⟨s.stack, rfl, rfl⟩)]
  exact congrArg _ hsame

/-! ### Sleeping, and the end of a run (R32, R161, R174) -/

theorem step_of_sleeping {s : State} (hl : launchRefusal s.params = none) (hr : s.run = .sleeping) :
    step s = .next (sleepBoundary s) := by
  simp [step, hl, hr]

theorem sleepBoundary_of_wake {s : State} (h : s.wake.now = true) :
    sleepBoundary s = { s with run := .running, wake := s.wake.rest } := by
  rw [sleepBoundary, if_pos h]

theorem sleepBoundary_of_no_wake {s : State} (hr : s.run = .sleeping) (h : s.wake.now = false) :
    sleepBoundary s = { s with wake := s.wake.rest } := by
  rw [sleepBoundary, h, if_neg Bool.false_ne_true, ← hr]

/-- Settles O41: the two answers of the environment. -/
theorem sleepingCoreOnlyWakes : Obligations.SleepingCoreOnlyWakes := fun _ hl hr =>
  ⟨fun h => (step_of_sleeping hl hr).trans (congrArg _ (sleepBoundary_of_wake h)),
    fun h => (step_of_sleeping hl hr).trans (congrArg _ (sleepBoundary_of_no_wake hr h))⟩

theorem run_succ_of_step {M : Host.Core} {k : Nat} {s t : M.State} (h : M.step s = .next t) :
    M.run (k + 1) s = M.run k t := by
  rw [Host.Core.run, h]

/-- Settles O42: by induction on the number of steps; each uses up an answer, and the rest are "no" as well. -/
theorem endedRunStaysEnded : Obligations.EndedRunStaysEnded := by
  intro k
  induction k with
  | zero => exact fun s _ hended => ⟨s.wake, rfl, hended.2⟩
  | succ k ih =>
    intro s hl ⟨hr, hnever⟩
    have hstep : step s = .next { s with wake := s.wake.rest } :=
      (sleepingCoreOnlyWakes s hl hr).2 (Answers.isNever_now hnever)
    obtain ⟨a, hrun, ha⟩ := ih { s with wake := s.wake.rest } hl ⟨hr, Answers.isNever_rest hnever⟩
    exact ⟨a, (run_succ_of_step (M := Sys2Proof.core) hstep).trans hrun, ha⟩

/-! ### The launch (R12, R156) -/

theorem step_of_launchRefusal {s : State} {r : Refusal} (h : launchRefusal s.params = some r) :
    step s = .refused r := by
  simp [step, h]

/-- Settles O44: the parameters are checked before the watchdog. -/
theorem badLaunchIsRefused : Obligations.BadLaunchIsRefused := fun s =>
  ⟨fun hbad => step_of_launchRefusal (by simp [launchRefusal, hbad]),
    fun hgood hwdt => step_of_launchRefusal (by simp [launchRefusal, hgood, hwdt])⟩

end Sys2Proof.Machine
end
